-- ==== Sys2Proof/Word.lean ====
section
/-! DEFINITION. Sys2Proof/Word.lean: the word types of the Sharok and the two shapes of data the state is made of.
Registers, addresses while computed and lane masks are bit vectors (R37, R59, R263); a row of one value per lane is a
vector of 128 (R7); keyed state is a list of key and value pairs in rising key order. -/
namespace Sys2Proof

/-- One byte of memory. -/
abbrev Byte := BitVec 8

/-- A vector register of one lane, or an instruction word (R37, R59). -/
abbrev Word := BitVec 32

/-- A uniform register or an address (R59). -/
abbrev DWord := BitVec 64

/-- A set of lanes of one group: bit i is lane i (R263). -/
abbrev Mask := BitVec 128

/-- One value for each of the 128 lanes of a group (R7). -/
abbrev Lanes (α : Type) := Vector α 128

/-- Sparse state by key, the keys strictly rising. -/
abbrev KeyMap (α : Type) := List (Nat × α)

end Sys2Proof
end

