-- ==== Sys2Proof/Syntax.lean ====
section
/-! DEFINITION. Sys2Proof/Syntax.lean: one constructor per row of spec/opcode_table.json.
The 172 coded words take their fields from 03_encoding.md (R40, R41, R46, R47, R54), every field as the bits
it has in the word; `w` is the W bit of R38. The 95 uncoded rows are host commands, steps of the asynchronous units
and events of the environment (95_what_each_step_holds.md): their operands name what the step acts on. -/
namespace Sys2Proof

/-- An instruction word, or one of the steps the table lists beside the words. -/
inductive Instr where
  /-- Adds two lane registers, truncated to 32 bits (R100). -/
  | iadd (d : BitVec 7) (a : BitVec 7) (b : BitVec 7) (w : Bool)
  /-- Subtracts two lane registers, truncated to 32 bits (R100). -/
  | isub (d : BitVec 7) (a : BitVec 7) (b : BitVec 7) (w : Bool)
  /-- Saturating signed 32-bit add that raises SAT on saturation (R100). -/
  | iaddsI32 (d : BitVec 7) (a : BitVec 7) (b : BitVec 7) (w : Bool)
  /-- Saturating signed 32-bit subtract (R100). -/
  | isubsI32 (d : BitVec 7) (a : BitVec 7) (b : BitVec 7) (w : Bool)
  /-- Saturating unsigned 32-bit add (R100). -/
  | iaddsN32 (d : BitVec 7) (a : BitVec 7) (b : BitVec 7) (w : Bool)
  /-- Saturating unsigned 32-bit subtract (R100). -/
  | isubsN32 (d : BitVec 7) (a : BitVec 7) (b : BitVec 7) (w : Bool)
  /-- Adds a signed immediate to a lane register (R101). -/
  | iaddi (d : BitVec 7) (a : BitVec 7) (i : BitVec 10) (w : Bool)
  /-- Low 32 bits of the product of two lane registers (R102). -/
  | imul (d : BitVec 7) (a : BitVec 7) (b : BitVec 7) (w : Bool)
  /-- High 32 bits of the signed product (R102). -/
  | imulhI32 (d : BitVec 7) (a : BitVec 7) (b : BitVec 7) (w : Bool)
  /-- High 32 bits of the unsigned product (R102). -/
  | imulhN32 (d : BitVec 7) (a : BitVec 7) (b : BitVec 7) (w : Bool)
  /-- Multiply-accumulate into the destination, truncated to 32 bits (R102). -/
  | imac (d : BitVec 7) (a : BitVec 7) (b : BitVec 7) (w : Bool)
  /-- Signed 32-bit minimum (R103). -/
  | iminI (d : BitVec 7) (a : BitVec 7) (b : BitVec 7) (w : Bool)
  /-- Signed 32-bit maximum (R103). -/
  | imaxI (d : BitVec 7) (a : BitVec 7) (b : BitVec 7) (w : Bool)
  /-- Unsigned 32-bit minimum (R103). -/
  | iminN (d : BitVec 7) (a : BitVec 7) (b : BitVec 7) (w : Bool)
  /-- Unsigned 32-bit maximum (R103). -/
  | imaxN (d : BitVec 7) (a : BitVec 7) (b : BitVec 7) (w : Bool)
  /-- Signed absolute value, saturating at 0x7FFF_FFFF (R103). -/
  | iabs (d : BitVec 7) (a : BitVec 7) (w : Bool)
  /-- Exact absolute difference of two signed values, written as n32 (R103). -/
  | idif (d : BitVec 7) (a : BitVec 7) (b : BitVec 7) (w : Bool)
  /-- Bitwise and (R104). -/
  | and (d : BitVec 7) (a : BitVec 7) (b : BitVec 7) (w : Bool)
  /-- Bitwise or (R104). -/
  | or (d : BitVec 7) (a : BitVec 7) (b : BitVec 7) (w : Bool)
  /-- Bitwise exclusive or (R104). -/
  | xor (d : BitVec 7) (a : BitVec 7) (b : BitVec 7) (w : Bool)
  /-- A and not B (R104). -/
  | andn (d : BitVec 7) (a : BitVec 7) (b : BitVec 7) (w : Bool)
  /-- A or not B (R104). -/
  | orn (d : BitVec 7) (a : BitVec 7) (b : BitVec 7) (w : Bool)
  /-- Bitwise exclusive nor (R104). -/
  | xnor (d : BitVec 7) (a : BitVec 7) (b : BitVec 7) (w : Bool)
  /-- Shift left by a register count (R105). -/
  | shlReg (d : BitVec 7) (a : BitVec 7) (b : BitVec 7) (w : Bool)
  /-- Logical shift right by a register count (R105). -/
  | shrReg (d : BitVec 7) (a : BitVec 7) (b : BitVec 7) (w : Bool)
  /-- Arithmetic shift right by a register count (R105). -/
  | sarReg (d : BitVec 7) (a : BitVec 7) (b : BitVec 7) (w : Bool)
  /-- Rotate left by a register count (R105). -/
  | rolReg (d : BitVec 7) (a : BitVec 7) (b : BitVec 7) (w : Bool)
  /-- Shift left by an immediate count (R105). -/
  | shlImm (d : BitVec 7) (a : BitVec 7) (c : BitVec 5) (w : Bool)
  /-- Logical shift right by an immediate count (R105). -/
  | shrImm (d : BitVec 7) (a : BitVec 7) (c : BitVec 5) (w : Bool)
  /-- Arithmetic shift right by an immediate count (R105). -/
  | sarImm (d : BitVec 7) (a : BitVec 7) (c : BitVec 5) (w : Bool)
  /-- Rotate left by an immediate count (R105). -/
  | rolImm (d : BitVec 7) (a : BitVec 7) (c : BitVec 5) (w : Bool)
  /-- Counts one bits (R106). -/
  | popc (d : BitVec 7) (a : BitVec 7) (w : Bool)
  /-- Counts leading zero bits (R106). -/
  | clz (d : BitVec 7) (a : BitVec 7) (w : Bool)
  /-- Reverses bit order (R106). -/
  | brev (d : BitVec 7) (a : BitVec 7) (w : Bool)
  /-- Gives the index of the lowest one bit (R106). -/
  | ffs (d : BitVec 7) (a : BitVec 7) (w : Bool)
  /-- Extracts a bit field, zero-extended (R106). -/
  | bfxN (d : BitVec 7) (a : BitVec 7) (b : BitVec 7) (w : Bool)
  /-- Extracts a bit field, sign-extended (R106). -/
  | bfxI (d : BitVec 7) (a : BitVec 7) (b : BitVec 7) (w : Bool)
  /-- Inserts a bit field into the destination (R106). -/
  | bfi (d : BitVec 7) (a : BitVec 7) (b : BitVec 7) (w : Bool)
  /-- Adds A to B shifted left by 0 to 4 (R107). -/
  | lea (d : BitVec 7) (a : BitVec 7) (b : BitVec 7) (s : BitVec 3) (w : Bool)
  /-- Loads an immediate into a lane register (R108). -/
  | movi (d : BitVec 7) (i : BitVec 17) (w : Bool)
  /-- Copies one lane register (R109). -/
  | mov (d : BitVec 7) (a : BitVec 7) (w : Bool)
  /-- Copies the low word of a G register into every bundle lane (R109). -/
  | movgLo (d : BitVec 7) (g : BitVec 6) (w : Bool)
  /-- Copies the high word of a G register into every bundle lane (R109). -/
  | movgHi (d : BitVec 7) (g : BitVec 6) (w : Bool)
  /-- Copies an even register pair (R109). -/
  | mov2 (d : BitVec 7) (a : BitVec 7) (w : Bool)
  /-- Reads a special register into each bundle lane (R68). -/
  | srd (d : BitVec 7) (s : BitVec 12) (w : Bool)
  /-- Moves a 32-bit register where a predicate holds (R110). -/
  | cmov (d : BitVec 7) (a : BitVec 7) (p : BitVec 6) (n : Bool) (w : Bool)
  /-- Moves a 64-bit pair where a predicate holds (R110). -/
  | cmovD (d : BitVec 7) (a : BitVec 7) (p : BitVec 6) (n : Bool) (w : Bool)
  /-- Compares two 32-bit integers into a lane predicate (R111). -/
  | icmp (p : BitVec 6) (a : BitVec 7) (b : BitVec 7) (c : BitVec 4) (w : Bool)
  /-- Compares f32 or f64 operands into a lane predicate (R112). -/
  | fcmp (p : BitVec 6) (a : BitVec 7) (b : BitVec 7) (c : BitVec 4) (w : Bool)
  /-- And of two optionally inverted lane predicates (R113). -/
  | pand (d : BitVec 6) (a : BitVec 6) (b : BitVec 6) (x : Bool) (y : Bool)
  /-- Or of two optionally inverted lane predicates (R113). -/
  | por (d : BitVec 6) (a : BitVec 6) (b : BitVec 6) (x : Bool) (y : Bool)
  /-- Exclusive or of two lane predicates (R113). -/
  | pxor (d : BitVec 6) (a : BitVec 6) (b : BitVec 6) (x : Bool) (y : Bool)
  /-- Copies an optionally inverted lane predicate (R113). -/
  | pmov (d : BitVec 6) (a : BitVec 6) (x : Bool)
  /-- Sets a lane predicate to a constant (R113). -/
  | pset (d : BitVec 6) (y : Bool)
  /-- Floating add, rounded once by RNE (R115). -/
  | fadd (d : BitVec 7) (a : BitVec 7) (b : BitVec 7) (t : BitVec 2) (w : Bool)
  /-- Floating subtract, rounded once by RNE (R115). -/
  | fsub (d : BitVec 7) (a : BitVec 7) (b : BitVec 7) (t : BitVec 2) (w : Bool)
  /-- Floating multiply with optional negation of B (R115). -/
  | fmul (d : BitVec 7) (a : BitVec 7) (b : BitVec 7) (t : BitVec 2) (n : Bool) (w : Bool)
  /-- Fused multiply-add into the destination (R115). -/
  | fmac (d : BitVec 7) (a : BitVec 7) (b : BitVec 7) (t : BitVec 2) (n : Bool) (w : Bool)
  /-- minimumNumber of two floating operands (R115). -/
  | fmin (d : BitVec 7) (a : BitVec 7) (b : BitVec 7) (t : BitVec 2) (w : Bool)
  /-- maximumNumber of two floating operands (R115). -/
  | fmax (d : BitVec 7) (a : BitVec 7) (b : BitVec 7) (t : BitVec 2) (w : Bool)
  /-- Correctly rounded f32 reciprocal (R116). -/
  | frcp (d : BitVec 7) (a : BitVec 7) (w : Bool)
  /-- Correctly rounded f32 reciprocal square root (R116). -/
  | frsq (d : BitVec 7) (a : BitVec 7) (w : Bool)
  /-- Correctly rounded f32 square root (R116). -/
  | fsqrt (d : BitVec 7) (a : BitVec 7) (w : Bool)
  /-- 2 to the power x, rounded toward zero (R116). -/
  | fex2 (d : BitVec 7) (a : BitVec 7) (w : Bool)
  /-- Base-2 logarithm, rounded toward zero (R116). -/
  | flg2 (d : BitVec 7) (a : BitVec 7) (w : Bool)
  /-- sin(pi x), rounded toward zero (R116). -/
  | fsinp (d : BitVec 7) (a : BitVec 7) (w : Bool)
  /-- cos(pi x), rounded toward zero (R116). -/
  | fcosp (d : BitVec 7) (a : BitVec 7) (w : Bool)
  /-- Rounds to an integral value in the same format by the selected mode (R117). -/
  | frnd (d : BitVec 7) (a : BitVec 7) (t : BitVec 2) (m : BitVec 3) (w : Bool)
  /-- Converts one value per lane between the listed types (R120). -/
  | cvt (d : BitVec 7) (a : BitVec 7) (c : BitVec 6) (r : BitVec 3) (s : Bool) (w : Bool)
  /-- Packs narrow elements through a format slot (R121). -/
  | pkn (d : BitVec 7) (a : BitVec 7) (b : BitVec 7) (f : BitVec 3) (w : Bool)
  /-- Unpacks narrow elements through a format slot (R121). -/
  | upkn (d : BitVec 7) (a : BitVec 7) (b : BitVec 7) (f : BitVec 3) (w : Bool)
  /-- Encodes MERE block records across lanes (R122). -/
  | pkb (d : BitVec 7) (a : BitVec 7) (b : BitVec 7) (f : BitVec 3) (w : Bool)
  /-- Decodes MERE block records across lanes (R122). -/
  | upkb (d : BitVec 7) (a : BitVec 7) (b : BitVec 7) (f : BitVec 3) (w : Bool)
  /-- Computes the shared exponent of each MERE block (R123). -/
  | bscl (d : BitVec 7) (a : BitVec 7) (f : BitVec 3) (w : Bool)
  /-- Reads another bundle lane's register (R125). -/
  | shfl (d : BitVec 7) (a : BitVec 7) (b : BitVec 7) (f : BitVec 3) (w : Bool)
  /-- Reduces a register over the bundle in a fixed tree (R126). -/
  | redx (d : BitVec 7) (a : BitVec 7) (f : BitVec 3) (w : Bool)
  /-- Inclusive scan in lane order over the bundle (R127). -/
  | scnx (d : BitVec 7) (a : BitVec 7) (f : BitVec 3) (w : Bool)
  /-- Votes a lane predicate over the bundle (R128). -/
  | vote (d : BitVec 7) (a : BitVec 7) (f : BitVec 3) (w : Bool)
  /-- Loads memory into lane registers (R195). -/
  | ld (d : BitVec 7) (a : BitVec 7) (g : BitVec 5) (z : BitVec 3) (h : BitVec 2) (w : Bool)
  /-- Stores lane registers to memory (R195). -/
  | st (d : BitVec 7) (a : BitVec 7) (g : BitVec 5) (z : BitVec 3) (h : BitVec 2) (w : Bool)
  /-- Waits for a full tagged scratchpad word, reads it and optionally empties it (R198). -/
  | ldf (d : BitVec 7) (a : BitVec 7) (g : BitVec 5) (h : BitVec 2) (w : Bool)
  /-- Waits for an empty tagged word, writes it and fills the tag (R198). -/
  | ste (d : BitVec 7) (a : BitVec 7) (g : BitVec 5) (w : Bool)
  /-- Writes a tagged word and fills the tag without waiting (R198). -/
  | stf (d : BitVec 7) (a : BitVec 7) (g : BitVec 5) (w : Bool)
  /-- Atomic read-modify-write per location with lane aggregation (R201). -/
  | atom (d : BitVec 7) (a : BitVec 7) (g : BitVec 5) (o : BitVec 4) (n : Bool) (w : Bool)
  /-- Per-lane memory copy in the open batch (R206). -/
  | cpy (d : BitVec 7) (a : BitVec 7) (g : BitVec 5) (z : BitVec 2) (t : Bool) (w : Bool)
  /-- Prefetches whole lines (R196). -/
  | pf (a : BitVec 7) (g : BitVec 5) (h : BitVec 2) (w : Bool)
  /-- Filtered texture fetch into four registers (R165). -/
  | tex (d : BitVec 7) (a : BitVec 7) (g : BitVec 6) (m : BitVec 4) (w : Bool)
  /-- Unfiltered texel or sample load by integer coordinates (R166). -/
  | tld (d : BitVec 7) (a : BitVec 7) (g : BitVec 6) (m : BitVec 3) (w : Bool)
  /-- Posts one fragment per bundle lane to a draw stream (R249). -/
  | fpost (p : BitVec 6) (a : BitVec 7) (g : BitVec 6) (w : Bool)
  /-- Predicated branch that may split the frontier entry (R273). -/
  | br (p : BitVec 6) (n : Bool) (u : Bool) (r : BitVec 4) (o : BitVec 13)
  /-- Branches each lane to a computed 64-bit address (R275). -/
  | brx (a : BitVec 7) (r : BitVec 4) (u : Bool) (w : Bool)
  /-- Predicated call that pushes return records (R273). -/
  | call (p : BitVec 6) (n : Bool) (u : Bool) (r : BitVec 4) (o : BitVec 13)
  /-- Pops each lane's return record and regroups lanes (R274). -/
  | ret
  /-- Ends the entry's lanes; the final exit waits for the group to drain (R277). -/
  | exit
  /-- Reads a fragment field into a method register (R242). -/
  | mfrg (d : BitVec 7) (s : BitVec 4)
  /-- Reads a buffered target field into a method register (R242). -/
  | mtld (d : BitVec 7) (s : BitVec 4)
  /-- Buffers a write of a target field (R242). -/
  | mtst (a : BitVec 7) (s : BitVec 4)
  /-- Ends the method run with no write when the predicate holds (R242). -/
  | mdsc (p : BitVec 6) (n : Bool)
  /-- Commits the run's buffered writes and ends it (R240). -/
  | mend
  /-- Takes the uniform slot with no effect (R280). -/
  | nop
  /-- 64-bit uniform add (R129). -/
  | gadd (d : BitVec 6) (a : BitVec 6) (b : BitVec 6) (w : Bool)
  /-- 64-bit uniform subtract (R129). -/
  | gsub (d : BitVec 6) (a : BitVec 6) (b : BitVec 6) (w : Bool)
  /-- Low 64 bits of a uniform product (R129). -/
  | gmul (d : BitVec 6) (a : BitVec 6) (b : BitVec 6) (w : Bool)
  /-- High 64 bits of the unsigned product (R129). -/
  | gmulhN (d : BitVec 6) (a : BitVec 6) (b : BitVec 6) (w : Bool)
  /-- High 64 bits of the signed product (R129). -/
  | gmulhI (d : BitVec 6) (a : BitVec 6) (b : BitVec 6) (w : Bool)
  /-- Uniform bitwise and (R129). -/
  | gand (d : BitVec 6) (a : BitVec 6) (b : BitVec 6) (w : Bool)
  /-- Uniform bitwise or (R129). -/
  | gor (d : BitVec 6) (a : BitVec 6) (b : BitVec 6) (w : Bool)
  /-- Uniform bitwise exclusive or (R129). -/
  | gxor (d : BitVec 6) (a : BitVec 6) (b : BitVec 6) (w : Bool)
  /-- Uniform A and not B (R129). -/
  | gandn (d : BitVec 6) (a : BitVec 6) (b : BitVec 6) (w : Bool)
  /-- Uniform shift left (R129). -/
  | gshl (d : BitVec 6) (a : BitVec 6) (b : BitVec 6) (w : Bool)
  /-- Uniform logical shift right (R129). -/
  | gshr (d : BitVec 6) (a : BitVec 6) (b : BitVec 6) (w : Bool)
  /-- Uniform arithmetic shift right (R129). -/
  | gsar (d : BitVec 6) (a : BitVec 6) (b : BitVec 6) (w : Bool)
  /-- Signed 64-bit minimum (R129). -/
  | gminI (d : BitVec 6) (a : BitVec 6) (b : BitVec 6) (w : Bool)
  /-- Signed 64-bit maximum (R129). -/
  | gmaxI (d : BitVec 6) (a : BitVec 6) (b : BitVec 6) (w : Bool)
  /-- Unsigned 64-bit minimum (R129). -/
  | gminN (d : BitVec 6) (a : BitVec 6) (b : BitVec 6) (w : Bool)
  /-- Unsigned 64-bit maximum (R129). -/
  | gmaxN (d : BitVec 6) (a : BitVec 6) (b : BitVec 6) (w : Bool)
  /-- Adds a signed immediate to a G register (R130). -/
  | gaddi (d : BitVec 6) (a : BitVec 6) (i : BitVec 12) (w : Bool)
  /-- Loads a signed immediate into a G register (R130). -/
  | gmovi (d : BitVec 6) (i : BitVec 18) (w : Bool)
  /-- Compares two 64-bit G registers into a uniform predicate (R131). -/
  | gcmp (q : BitVec 4) (a : BitVec 6) (b : BitVec 6) (c : BitVec 4) (w : Bool)
  /-- And of two uniform predicates (R113). -/
  | qand (q : BitVec 4) (x : BitVec 4) (y : BitVec 4) (n : Bool) (m : Bool)
  /-- Or of two uniform predicates (R113). -/
  | qor (q : BitVec 4) (x : BitVec 4) (y : BitVec 4) (n : Bool) (m : Bool)
  /-- Exclusive or of two uniform predicates (R113). -/
  | qxor (q : BitVec 4) (x : BitVec 4) (y : BitVec 4) (n : Bool) (m : Bool)
  /-- Copies a uniform predicate (R113). -/
  | qmov (q : BitVec 4) (x : BitVec 4) (n : Bool)
  /-- Sets a uniform predicate to a constant (R113). -/
  | qset (q : BitVec 4) (m : Bool)
  /-- Copies a G register (R132). -/
  | gmov (d : BitVec 6) (a : BitVec 6) (w : Bool)
  /-- Reads a special register into a G register (R68). -/
  | gsrd (d : BitVec 6) (s : BitVec 12) (w : Bool)
  /-- Reads one lane's V register into a G register (R132). -/
  | glane (d : BitVec 6) (a : BitVec 6) (b : BitVec 6) (w : Bool)
  /-- Writes a G register to a writable special register; covers writes to registers with no row of their own (R385). -/
  | gsrw (h : BitVec 6) (a : BitVec 6) (l : BitVec 6) (w : Bool)
  /-- Moves the whole frontier entry on a uniform predicate (R276). -/
  | gbr (q : BitVec 4) (n : Bool) (r : BitVec 4) (o : BitVec 16)
  /-- Prefix that repeats the next lane instruction with stepped register fields (R51). -/
  | rep (c : BitVec 6) (x : BitVec 3) (y : BitVec 3) (z : BitVec 3)
  /-- Prefix that widens the next instruction's immediate (R50). -/
  | lit (l : BitVec 25)
  /-- Orders the group's accesses at a scope (R212). -/
  | fence (s : BitVec 3) (o : BitVec 2) (e : Bool)
  /-- Allocates a transaction barrier from the core's pool (R215). -/
  | bara (d : BitVec 6) (a : BitVec 6) (q : BitVec 4) (s : BitVec 3) (w : Bool)
  /-- Arrives at a barrier, optionally adding transaction bytes (R217). -/
  | bararr (a : BitVec 6) (b : BitVec 6) (x : Bool) (r : Bool) (w : Bool)
  /-- Waits for a barrier phase and acquires (R218). -/
  | barwait (a : BitVec 6) (b : BitVec 6) (w : Bool)
  /-- Adds a reference to a barrier (R216). -/
  | barref (a : BitVec 6) (w : Bool)
  /-- Drops a reference; at zero the barrier returns to the pool (R216). -/
  | bardrop (a : BitVec 6) (w : Bool)
  /-- Closes the open copy batch (R209). -/
  | cpyseal (w : Bool)
  /-- Waits until at most N sealed batches are unfinished and reports failures (R210). -/
  | cpywait (n : BitVec 6) (w : Bool)
  /-- Starts a matrix product accumulating into the accumulator store (R155). -/
  | mma (d : BitVec 6) (a : BitVec 6) (y : BitVec 3) (x : BitVec 3) (w : Bool)
  /-- Starts a matrix product from zero accumulators (R155). -/
  | mmaz (d : BitVec 6) (a : BitVec 6) (y : BitVec 3) (x : BitVec 3) (w : Bool)
  /-- Loads a memory rectangle into accumulators (R159). -/
  | acld (d : BitVec 6) (a : BitVec 6) (b : BitVec 6) (s : BitVec 3) (w : Bool)
  /-- Stores accumulators to a memory rectangle through a slot (R159). -/
  | acst (d : BitVec 6) (a : BitVec 6) (b : BitVec 6) (s : BitVec 3) (w : Bool)
  /-- Waits for an engine operation and returns its status (R160). -/
  | mmwait (d : BitVec 6) (a : BitVec 6) (w : Bool)
  /-- Releases and spawns a task record (R308). -/
  | tspawn (a : BitVec 6) (w : Bool)
  /-- Releases and pushes a value into a hardware queue class (R295). -/
  | qpush (q : BitVec 4) (a : BitVec 6) (b : BitVec 6) (c : BitVec 3) (w : Bool)
  /-- Takes the oldest element of the highest class, waiting if empty (R296). -/
  | qpop (d : BitVec 6) (a : BitVec 6) (w : Bool)
  /-- Takes an element if one is present, without waiting (R296). -/
  | qtry (d : BitVec 6) (a : BitVec 6) (q : BitVec 4) (w : Bool)
  /-- Gives the group's top register blocks to the crew pool (R309). -/
  | vgive (n : BitVec 6) (w : Bool)
  /-- Claims register blocks from the crew pool (R309). -/
  | vclaim (n : BitVec 6) (w : Bool)
  /-- Checks a regatta bow table for cycles and arms the set (R318). -/
  | bowchk (d : BitVec 6) (a : BitVec 6) (b : BitVec 6) (w : Bool)
  /-- Writes one tile's BOW bit and disarms the set (R320). -/
  | bowset (a : BitVec 6) (b : BitVec 6) (w : Bool)
  /-- Ends the group's regatta firing as a pass (R326). -/
  | bowpass (w : Bool)
  /-- Sets the idle state of a live regatta task (R327). -/
  | bowidle (a : BitVec 6) (b : BitVec 6) (w : Bool)
  /-- Clears the idle state of a live regatta task (R327). -/
  | bowwake (a : BitVec 6) (b : BitVec 6) (w : Bool)
  /-- Opens or joins the draw stream of a render target (R247). -/
  | rtopen (d : BitVec 6) (a : BitVec 6) (q : BitVec 4) (c : Bool) (w : Bool)
  /-- Seals a primitive sequence number of a stream (R250). -/
  | fseal (a : BitVec 6) (b : BitVec 6) (w : Bool)
  /-- Waits until every fragment below a PSN is applied, then acquires (R251). -/
  | rtsync (a : BitVec 6) (b : BitVec 6) (w : Bool)
  /-- Releases the stream's applied state at a scope (R252). -/
  | rtrel (a : BitVec 6) (s : BitVec 3) (w : Bool)
  /-- Seals everything, runs the close method and ends the stream (R253). -/
  | rtclose (d : BitVec 6) (a : BitVec 6) (w : Bool)
  /-- Contributes a value to a network reduction slot (R221). -/
  | nred (a : BitVec 6) (b : BitVec 6) (o : BitVec 3) (w : Bool)
  /-- Collects a reduction round's result and status (R222). -/
  | nrwait (d : BitVec 6) (a : BitVec 6) (q : BitVec 4) (w : Bool)
  /-- Marks the entry as yielding and moves round-robin past the group (R279). -/
  | yield
  /-- Raises a SOFTWARE trap with a code (R384). -/
  | trap (c : BitVec 16)
  /-- Returns from the trap handler and restores the frontier (R374). -/
  | eret
  /-- Idles a management core group until a management event (R386). -/
  | halt
  /-- Invalidates stage-1 entries on the path of one virtual page (R364). -/
  | tlbiVa (a : BitVec 6) (b : BitVec 6) (w : Bool)
  /-- Invalidates every stage-1 entry under an ASID (R364). -/
  | tlbiAsid (b : BitVec 6) (w : Bool)
  /-- Invalidates every stage-1 entry of a virtual function (R364). -/
  | tlbiVf (b : BitVec 6) (w : Bool)
  /-- Invalidates stage-2 entries for one intermediate page and dependent translations (R364). -/
  | tlbiIpa (a : BitVec 6) (b : BitVec 6) (w : Bool)
  /-- Invalidates every translation of a virtual function (R364). -/
  | tlbiS2 (b : BitVec 6) (w : Bool)
  /-- Ends every entry of the group and waits as a final exit (R278). -/
  | gexit
  /-- A non-zero write to SR.TKILL kills the context (R375). -/
  | writeSrTkill (v : DWord)
  /-- Writing SR.ARITH waits for earlier lane instructions and then sets the sticky flags (R385). -/
  | writeSrArith (v : DWord)
  /-- Sets the watchdog limit for later waits, with a minimum of 4,096 (R72). -/
  | writeSrWdog (v : DWord)
  /-- Sets the virtual function's cycle counter at level H (R73). -/
  | writeSrClock (v : DWord)
  /-- Selects which saved frontier entry the TF registers show (R373). -/
  | writeSrTfsel (v : DWord)
  /-- Clears pending management event bits (R430). -/
  | writeSrMevent (v : DWord)
  /-- A long-latency producer's value arrives and fills its empty destination (R62). -/
  | fill (gid : Nat) (idx : Nat) (ext : List Byte)
  /-- The oldest LOST log entry is delivered as a trap before the group's next issue (R382). -/
  | deferredTrap (gid : Nat)
  /-- A BARWAIT outlives its watchdog limit, traps and captures the barrier state (R219). -/
  | barrierTimeout (gid : Nat) (ent : Nat)
  /-- An LDF or STE tag wait outlives its limit and traps, undoing its effects (R199). -/
  | tagTimeout (gid : Nat) (ent : Nat)
  /-- An RTSYNC wait expires and traps BARRIER_TIMEOUT with F in SR.TADDR (R251). -/
  | rtsyncTimeout (gid : Nat) (ent : Nat)
  /-- A VCLAIM wait expires and traps BARRIER_TIMEOUT (R309). -/
  | vclaimTimeout (gid : Nat) (ent : Nat)
  /-- A systolic link wait exceeds the limit and ends the engine operation with LINK_TIMEOUT (R145). -/
  | linkTimeout (gid : Nat) (seq : Nat)
  /-- An entry's starvation count reaches 1,024 and it becomes due (R266). -/
  | entryDue (gid : Nat) (ent : Nat)
  /-- A yield mark clears after 64 cycles (R279). -/
  | yieldMarkClear (gid : Nat) (ent : Nat)
  /-- The head store-FIFO entry is accepted by the core or slice that performs it (R192). -/
  | storeDrain (gid : Nat)
  /-- An arrival, after its release, adds bytes and one arrival to the barrier (R217). -/
  | barrierArrival (gid : Nat)
  /-- A CPY's writes are performed, counting down its barrier and finishing batches (R206). -/
  | copyPerformed (core : Nat) (idx : Nat)
  /-- The current governor grants the head request once enough units are free (R148). -/
  | leaveGrant (cluster : Nat)
  /-- The matrix engine runs every K-step of one result tile of the chosen operation (R149). -/
  | engineTileTurn (gid : Nat)
  /-- An engine operation ends, recording its status and releasing locks and leave (R155). -/
  | engineComplete (gid : Nat)
  /-- A seal reaches the home slice, sets its bit and advances the frontier (R234). -/
  | fsealAccept (gid : Nat)
  /-- An advance of F reaches a Shore unit and updates its view (R234). -/
  | frontierView (stream : Nat) (unit : Nat)
  /-- A fragment arrives at a Shore unit and is admitted, refused or discarded as late (R235). -/
  | fragmentArrival (stream : Nat) (idx : Nat)
  /-- A contribution reaches its collective slot and is combined in rank order (R221). -/
  | nredContribution (gid : Nat)
  /-- The dispatcher takes a launch from its queue, reads and checks the record and writes STATUS (R285). -/
  | launchAccept (vf : Nat)
  /-- The dispatcher places the first launch in its order once it fits (R293). -/
  | launchPlace (vf : Nat) (places : List Nat)
  /-- A placed crew begins issuing once its stagger interval has passed (R291). -/
  | staggerStart (crew : Nat)
  /-- A core starts the head task of its queue when the task's launch class fits (R304). -/
  | taskStart (core : Nat)
  /-- A queued task has aged the interval A and becomes stealable (R305). -/
  | taskStealable (core : Nat) (idx : Nat)
  /-- An idle core takes the oldest stealable task that fits (R305). -/
  | taskSteal (core : Nat)
  /-- A copy task finishes every unit, posts a failure event if any, and completes (R300). -/
  | copyTaskComplete (core : Nat) (idx : Nat)
  /-- An eligible regatta task takes its heat as a pass or a firing (R322). -/
  | heatDispatch (rset : Nat)
  /-- A firing ends, its writes are released, its tiles are turned and a heat is subtracted (R322). -/
  | heatEnd (rset : Nat) (task : Nat)
  /-- The firmware writes a page request entry into the ring once a tag and a position are free (R358). -/
  | pageRequest (vf : Nat)
  /-- The firmware reads new page replies and acts on each one (R359). -/
  | replyDoorbell (vf : Nat)
  /-- A CXL or fabric access has no completion after 1 ms and is logged or turned LOST (R381). -/
  | completionTimeout (id : Nat)
  /-- A port reports its link lost and every access waiting on it is logged (R381). -/
  | linkDown (port : Nat)
  /-- A port reports its link up and logged accesses are retried (R381). -/
  | linkUp (port : Nat)
  /-- A link is still down 1 ms after its loss and waiting entries turn LOST (R381). -/
  | linkLostTimeout (port : Nat)
  /-- An inbound fabric request is checked against PEERS and stage 2 and then served, refused, held or redirected (R362). -/
  | inboundFabricRequest (endpt : Nat) (srcVf : Nat) (vf : Nat) (kind : Nat) (addr : DWord) (data : List Byte)
  /-- A peer receives a redirect, holds the access and posts a redirect record (R411). -/
  | redirect (vf : Nat) (window : Nat) (endpt : Nat)
  /-- Creates a hardware queue of a kind and size (R433). -/
  | qcreate (vf : Nat) (ctx : Nat) (launch : Bool) (k : Nat)
  /-- Appends a value or launch record address to a queue class (R433). -/
  | qsubmit (vf : Nat) (ctx : Nat) (handle : DWord) (cls : Nat) (v : DWord)
  /-- Destroys a queue and drops its elements (R433). -/
  | qdestroy (vf : Nat) (ctx : Nat) (handle : DWord)
  /-- Reads and checks a context record and makes the context live (R338). -/
  | createContext (vf : Nat) (rec : DWord)
  /-- Builds and doubly signs an attestation report for a nonce (R345). -/
  | attestationReport (vf : Nat) (nonce : List Byte)
  /-- Sets a virtual function's logical slices, creating, repartitioning or destroying it (R335). -/
  | setSlices (vf : Nat) (slices : Word)
  /-- Sets a virtual function's scope grants and sole-tenant clock step (R339). -/
  | setHpol (vf : Nat) (hpol : DWord)
  /-- Sets the most contexts a tenant may hold (R335). -/
  | setCtxmax (vf : Nat) (n : Nat)
  /-- Sets HBM4 credits per window for a tenant's slices, within the die limit (R343). -/
  | setBudget (vf : Nat) (cluster : Nat) (n : Nat)
  /-- Assigns a 1 GiB physical region to a virtual function or a save region (R348). -/
  | assignRegion (region : Nat) (owner : Option Nat) (save : Bool)
  /-- Sets a virtual function's stage-2 root table (R349). -/
  | setS2root (vf : Nat) (root : DWord)
  /-- Sets the page-request ring base and length (R349). -/
  | setPageRequestRing (vf : Nat) (base : DWord) (len : Nat)
  /-- Sets the reply ring base and length (R349). -/
  | setReplyRing (vf : Nat) (base : DWord) (len : Nat)
  /-- Sets the peer endpoints allowed to reach a virtual function (R362). -/
  | setPeers (vf : Nat) (peers : List (Nat × Nat))
  /-- Writes a fabric window; a rewrite retries every access held on it (R360). -/
  | setWindow (vf : Nat) (window : Nat) (rbase : DWord) (limit : DWord) (endpt : Nat) (rvf : Nat) (asid : Nat) (flags : BitVec 8)
  /-- Sets the hypervisor event queue base and length (R426). -/
  | setEventQueue (base : DWord) (len : Nat)
  /-- A hypervisor invalidation command carried out as a TLBI at level H (R363). -/
  | invalidate (kind : Nat) (ga : DWord) (gb : DWord)
  /-- Sets the module power limit by scaling governor budgets (R431). -/
  | powercap (watts : Nat)
  /-- Stops a context and saves it into its save area (R390). -/
  | preempt (vf : Nat) (ctx : Nat) (reason : Nat)
  /-- Checks the save header and restores a context (R402). -/
  | resume (vf : Nat) (ctx : Nat)
  /-- Continues a save or restore from the faulting frame (R390). -/
  | saveRetry (vf : Nat)
  /-- Kills a context with reason 3 (R390). -/
  | kill (vf : Nat) (ctx : Nat)
  /-- Creates the receiving virtual function on the target after a shape check (R406). -/
  | migPrepare (vf : Nat) (dies : List Nat) (links : List (Nat × Nat × Nat))
  /-- Quiesces the virtual function, retires its page requests and sends the bundle (R405). -/
  | migStart (vf : Nat) (endpt : Nat) (target : Nat) (answers : Bool)
  /-- The target receives the bundle and restores each context (R405). -/
  | bundleResume (vf : Nat)
  /-- The source receives a target's request for a page and sends it ahead of the background order (R408). -/
  | pagePull (vf : Nat) (ipa : Nat)
  /-- A page arrives at the target, is written, set OWN 0, acknowledged and its held accesses replay (R407). -/
  | pageTransfer (vf : Nat) (ipa : Nat) (data : List Byte)
  /-- The source receives the acknowledgement and sets OWN 1 (R407). -/
  | pageAck (vf : Nat) (ipa : Nat)
  /-- The source starts sending its next owned page in background order (R408). -/
  | backgroundPush (vf : Nat)
  /-- Ends redirection and destroys the source virtual function (R390). -/
  | migEnd (vf : Nat)
  /-- A stack reports critical temperature and the whole device freezes (R403). -/
  | thermalFreeze (stack : Nat)
  /-- After 10 ms below threshold the clock restarts and the frozen interval is added (R404). -/
  | thermalResume (cycles : Nat)
  /-- A new 1 us budget window opens and held requests are charged (R342). -/
  | budgetWindow
  /-- A virtual function's activation count of a row reaches THRESH, triggering a neighbour refresh and delays (R344). -/
  | rowThresholdCrossing (slice : Nat) (vf : Nat) (row : Nat)
  /-- Row activation counts restart with the bank's refresh interval (R344). -/
  | activationCountRestart (slice : Nat) (row : Nat)
  /-- A router with no traffic and no wake powers down at the end of a cycle (R312). -/
  | routerPowerDown (router : Nat)
  /-- A powered-down router receives a wake and becomes ready (R312). -/
  | routerWake (router : Nat)
  /-- A producer holding records retries the next ring position after 65,536 cycles (R358). -/
  | ringRetry (ring : Nat) (owner : Nat)
  /-- Background scrubbing reads and checks an SRAM row (R425). -/
  | scrub (array : Nat) (row : Nat)
  /-- A bank reaches 16 corrected errors in a pass, is marked failed and a rebuild starts (R425). -/
  | bankFailed (array : Nat) (bank : Nat)
  /-- The rebuild finishes and the spare replaces the failed bank (R425). -/
  | rebuildDone (array : Nat)
  /-- A flit or beat whose link check mismatches is replayed (R427). -/
  | linkReplay (link : Nat) (ok : Bool)
  /-- A lane with 8 errors in 10^6 beats moves to a spare lane (R427). -/
  | laneRepair (link : Nat) (lane : Nat)
  /-- A replay that fails three times, or a repair with no spare, sends the link to retraining (R427). -/
  | linkRetrain (link : Nat)
  /-- Retraining finishes; on failure the channel is disabled and its requests fail (R428). -/
  | retrainComplete (link : Nat) (ok : Bool)
  /-- A management event arrives, sets SR.MEVENT and wakes a halted management group (R386). -/
  | managementEvent (die : Nat) (bit : Nat)
  /-- The boot ROM verifies the image and boots the firmware through its steps (R432). -/
  | powerOnBoot
  /-- The recovery loader receives, verifies and writes a new image (R432). -/
  | recoveryImage (magic : Word) (version : Nat) (rsaGood : Bool) (slhGood : Bool)
  /-- At its next idle moment the firmware retires a failed cluster or logical slice and remaps the spare into its logical number, or stops exposing the slice (R10). -/
  | clusterRetiredInService (cluster : Nat)
  /-- A management core fails and the firmware marks its die's resources unavailable while the other dies run on (R19). -/
  | managementCoreFailure (die : Nat)
  /-- A sender receives BUSY for a fabric request to a frozen device and restarts its completion timeout (R404). -/
  | fabricBusy (id : Nat)
  /-- A remote refusal of an outbound fabric access arrives and fails the access with ACCESS_VIOLATION, delivered as for a FAULT reply (R361). -/
  | remoteRefusal (id : Nat)
  /-- An outstanding link replay finishes, and a lane repair that waited on it takes effect on the new mapping (R427). -/
  | linkReplayComplete (link : Nat)
  deriving DecidableEq, Repr, Inhabited

end Sys2Proof
end

