-- ==== Sys2Proof/WellFormed.lean ====
section
/-! DEFINITION. Sys2Proof/WellFormed.lean: the encoding checks of one word that its fields decide alone (R39, R42 to
R45, R55, R56): reserved selectors, predicate limits, pair and quad alignment. Checks that need the launch (format
slots, R121 to R123), the register blocks (REG_RANGE) or the level (R48, R68) are made where the instruction issues. -/
namespace Sys2Proof

/-- An even register number, as a 64-bit pair needs (R45). -/
def even (x : BitVec n) : Bool := x.toNat % 2 == 0

/-- A lane predicate field names P0 to P47 (R39). -/
def pOk (p : BitVec 6) : Bool := p.toNat < 48

/-- The type code of a 64-bit type of CVT: f64, i64, n64 (R118). -/
def is64 (c : Nat) : Bool := c == 1 || c == 6 || c == 7

/-- The register rule of an LM size: .d even, .q a multiple of 4 (R42). -/
def sizeOk (z : BitVec 3) (d : BitVec 7) : Bool :=
  if z.toNat == 3 then d.toNat % 2 == 0 else if z.toNat == 4 then d.toNat % 4 == 0 else true

/-- The 64-bit operations of ATOM (R45). -/
def atom64 (o : BitVec 4) : Bool :=
  o.toNat == 1 || o.toNat == 6 || o.toNat == 7 || o.toNat == 12 || o.toNat == 14

/-- A SEL value that names a target field (R241). -/
def selOk (s : BitVec 4) : Bool := s.toNat ≤ 2 || 8 ≤ s.toNat

/-- The fields of the word keep R39 and R42 to R45. -/
def Instr.wf : Instr → Bool
  | .iadd _ _ _ _ => true
  | .isub _ _ _ _ => true
  | .iaddsI32 _ _ _ _ => true
  | .isubsI32 _ _ _ _ => true
  | .iaddsN32 _ _ _ _ => true
  | .isubsN32 _ _ _ _ => true
  | .iaddi _ _ _ _ => true
  | .imul _ _ _ _ => true
  | .imulhI32 _ _ _ _ => true
  | .imulhN32 _ _ _ _ => true
  | .imac _ _ _ _ => true
  | .iminI _ _ _ _ => true
  | .imaxI _ _ _ _ => true
  | .iminN _ _ _ _ => true
  | .imaxN _ _ _ _ => true
  | .iabs _ _ _ => true
  | .idif _ _ _ _ => true
  | .and _ _ _ _ => true
  | .or _ _ _ _ => true
  | .xor _ _ _ _ => true
  | .andn _ _ _ _ => true
  | .orn _ _ _ _ => true
  | .xnor _ _ _ _ => true
  | .shlReg _ _ _ _ => true
  | .shrReg _ _ _ _ => true
  | .sarReg _ _ _ _ => true
  | .rolReg _ _ _ _ => true
  | .shlImm _ _ _ _ => true
  | .shrImm _ _ _ _ => true
  | .sarImm _ _ _ _ => true
  | .rolImm _ _ _ _ => true
  | .popc _ _ _ => true
  | .clz _ _ _ => true
  | .brev _ _ _ => true
  | .ffs _ _ _ => true
  | .bfxN _ _ _ _ => true
  | .bfxI _ _ _ _ => true
  | .bfi _ _ _ _ => true
  | .lea _ _ _ s _ => s.toNat ≤ 4
  | .movi _ _ _ => true
  | .mov _ _ _ => true
  | .movgLo _ _ _ => true
  | .movgHi _ _ _ => true
  | .mov2 d a _ => even d && even a
  | .srd _ _ _ => true
  | .cmov _ _ p _ _ => pOk p
  | .cmovD d a p _ _ => pOk p && even d && even a
  | .icmp p _ _ c _ => pOk p && c.toNat < 10
  | .fcmp p a b c _ => pOk p && (c.toNat < 8 || (even a && even b))
  | .pand d a b _ _ => pOk d && pOk a && pOk b
  | .por d a b _ _ => pOk d && pOk a && pOk b
  | .pxor d a b _ _ => pOk d && pOk a && pOk b
  | .pmov d a _ => pOk d && pOk a
  | .pset d _ => pOk d
  | .fadd d a b t _ => t != 1 || (even d && even a && even b)
  | .fsub d a b t _ => t != 1 || (even d && even a && even b)
  | .fmul d a b t _ _ => t != 1 || (even d && even a && even b)
  | .fmac d a b t _ _ => t != 1 || (even d && even a && even b)
  | .fmin d a b t _ => t != 1 || (even d && even a && even b)
  | .fmax d a b t _ => t != 1 || (even d && even a && even b)
  | .frcp _ _ _ => true
  | .frsq _ _ _ => true
  | .fsqrt _ _ _ => true
  | .fex2 _ _ _ => true
  | .flg2 _ _ _ => true
  | .fsinp _ _ _ => true
  | .fcosp _ _ _ => true
  | .frnd d a t m _ => m.toNat ≤ 4 && (t != 1 || (even d && even a))
  | .cvt d a c r _ _ => c.toNat / 8 != c.toNat % 8 && r.toNat != 7 && (!is64 (c.toNat / 8) || even a) && (!is64 (c.toNat % 8) || even d)
  | .pkn _ _ _ _ _ => true
  | .upkn _ _ _ _ _ => true
  | .pkb _ _ _ _ _ => true
  | .upkb _ _ _ _ _ => true
  | .bscl _ _ _ _ => true
  | .shfl _ _ _ f _ => f.toNat ≤ 3
  | .redx _ _ _ _ => true
  | .scnx _ _ _ _ => true
  | .vote d a f _ => f.toNat ≤ 3 && a.toNat < 48 && (f.toNat != 2 || d.toNat % 4 == 0)
  | .ld d _ _ z h _ => z.toNat ≤ 6 && h.toNat ≤ 2 && sizeOk z d
  | .st d _ _ z h _ => z.toNat ≤ 4 && h.toNat ≤ 2 && sizeOk z d
  | .ldf _ _ _ h _ => h.toNat ≤ 1
  | .ste _ _ _ _ => true
  | .stf _ _ _ _ => true
  | .atom d a _ o n _ => (!n || d == 0) && (!atom64 o || (even a && even d))
  | .cpy _ _ g z _ _ => z.toNat ≤ 2 && even g
  | .pf _ _ h _ => h.toNat ≤ 2
  | .tex _ _ _ m _ => m.toNat % 4 != 3
  | .tld _ _ _ _ _ => true
  | .fpost p _ _ _ => pOk p
  | .br p _ _ _ _ => pOk p
  | .brx a _ _ _ => even a
  | .call p _ _ _ _ => pOk p
  | .ret => true
  | .exit => true
  | .mfrg d s => d.toNat < 16 && s.toNat ≤ 10
  | .mtld d s => d.toNat < 16 && selOk s
  | .mtst a s => a.toNat < 16 && selOk s
  | .mdsc p _ => p.toNat < 8
  | .mend => true
  | .nop => true
  | .gadd _ _ _ _ => true
  | .gsub _ _ _ _ => true
  | .gmul _ _ _ _ => true
  | .gmulhN _ _ _ _ => true
  | .gmulhI _ _ _ _ => true
  | .gand _ _ _ _ => true
  | .gor _ _ _ _ => true
  | .gxor _ _ _ _ => true
  | .gandn _ _ _ _ => true
  | .gshl _ _ _ _ => true
  | .gshr _ _ _ _ => true
  | .gsar _ _ _ _ => true
  | .gminI _ _ _ _ => true
  | .gmaxI _ _ _ _ => true
  | .gminN _ _ _ _ => true
  | .gmaxN _ _ _ _ => true
  | .gaddi _ _ _ _ => true
  | .gmovi _ _ _ => true
  | .gcmp _ _ _ c _ => c.toNat < 10
  | .qand _ _ _ _ _ => true
  | .qor _ _ _ _ _ => true
  | .qxor _ _ _ _ _ => true
  | .qmov _ _ _ => true
  | .qset _ _ => true
  | .gmov _ _ _ => true
  | .gsrd _ _ _ => true
  | .glane _ _ _ _ => true
  | .gsrw _ _ _ _ => true
  | .gbr _ _ _ _ => true
  | .rep _ _ _ _ => true
  | .lit _ => true
  | .fence s _ _ => s.toNat ≤ 6
  | .bara _ _ _ s _ => s.toNat ≤ 6
  | .bararr _ b x _ _ => x || b == 0
  | .barwait _ _ _ => true
  | .barref _ _ => true
  | .bardrop _ _ => true
  | .cpyseal _ => true
  | .cpywait _ _ => true
  | .mma _ _ _ _ _ => true
  | .mmaz _ _ _ _ _ => true
  | .acld _ _ _ _ _ => true
  | .acst _ _ _ _ _ => true
  | .mmwait _ _ _ => true
  | .tspawn _ _ => true
  | .qpush _ _ _ _ _ => true
  | .qpop _ _ _ => true
  | .qtry _ _ _ _ => true
  | .vgive n _ => 1 ≤ n.toNat && n.toNat ≤ 15
  | .vclaim n _ => 1 ≤ n.toNat && n.toNat ≤ 15
  | .bowchk _ _ _ _ => true
  | .bowset _ _ _ => true
  | .bowpass _ => true
  | .bowidle _ _ _ => true
  | .bowwake _ _ _ => true
  | .rtopen _ _ _ _ _ => true
  | .fseal _ _ _ => true
  | .rtsync _ _ _ => true
  | .rtrel _ s _ => s.toNat ≤ 6
  | .rtclose _ _ _ => true
  | .nred _ _ _ _ => true
  | .nrwait _ _ _ _ => true
  | .yield => true
  | .trap _ => true
  | .eret => true
  | .halt => true
  | .tlbiVa _ _ _ => true
  | .tlbiAsid _ _ => true
  | .tlbiVf _ _ => true
  | .tlbiIpa _ _ _ => true
  | .tlbiS2 _ _ => true
  | .gexit => true
  | .writeSrTkill _ => true
  | .writeSrArith _ => true
  | .writeSrWdog _ => true
  | .writeSrClock _ => true
  | .writeSrTfsel _ => true
  | .writeSrMevent _ => true
  | .fill _ _ _ => true
  | .deferredTrap _ => true
  | .barrierTimeout _ _ => true
  | .tagTimeout _ _ => true
  | .rtsyncTimeout _ _ => true
  | .vclaimTimeout _ _ => true
  | .linkTimeout _ _ => true
  | .entryDue _ _ => true
  | .yieldMarkClear _ _ => true
  | .storeDrain _ => true
  | .barrierArrival _ => true
  | .copyPerformed _ _ => true
  | .leaveGrant _ => true
  | .engineTileTurn _ => true
  | .engineComplete _ => true
  | .fsealAccept _ => true
  | .frontierView _ _ => true
  | .fragmentArrival _ _ => true
  | .nredContribution _ => true
  | .launchAccept _ => true
  | .launchPlace _ _ => true
  | .staggerStart _ => true
  | .taskStart _ => true
  | .taskStealable _ _ => true
  | .taskSteal _ => true
  | .copyTaskComplete _ _ => true
  | .heatDispatch _ => true
  | .heatEnd _ _ => true
  | .pageRequest _ => true
  | .replyDoorbell _ => true
  | .completionTimeout _ => true
  | .linkDown _ => true
  | .linkUp _ => true
  | .linkLostTimeout _ => true
  | .inboundFabricRequest _ _ _ _ _ _ => true
  | .redirect _ _ _ => true
  | .qcreate _ _ _ _ => true
  | .qsubmit _ _ _ _ _ => true
  | .qdestroy _ _ _ => true
  | .createContext _ _ => true
  | .attestationReport _ _ => true
  | .setSlices _ _ => true
  | .setHpol _ _ => true
  | .setCtxmax _ _ => true
  | .setBudget _ _ _ => true
  | .assignRegion _ _ _ => true
  | .setS2root _ _ => true
  | .setPageRequestRing _ _ _ => true
  | .setReplyRing _ _ _ => true
  | .setPeers _ _ => true
  | .setWindow _ _ _ _ _ _ _ _ => true
  | .setEventQueue _ _ => true
  | .invalidate _ _ _ => true
  | .powercap _ => true
  | .preempt _ _ _ => true
  | .resume _ _ => true
  | .saveRetry _ => true
  | .kill _ _ => true
  | .migPrepare _ _ _ => true
  | .migStart _ _ _ _ => true
  | .bundleResume _ => true
  | .pagePull _ _ => true
  | .pageTransfer _ _ _ => true
  | .pageAck _ _ => true
  | .backgroundPush _ => true
  | .migEnd _ => true
  | .thermalFreeze _ => true
  | .thermalResume _ => true
  | .budgetWindow => true
  | .rowThresholdCrossing _ _ _ => true
  | .activationCountRestart _ _ => true
  | .routerPowerDown _ => true
  | .routerWake _ => true
  | .ringRetry _ _ => true
  | .scrub _ _ => true
  | .bankFailed _ _ => true
  | .rebuildDone _ => true
  | .linkReplay _ _ => true
  | .laneRepair _ _ => true
  | .linkRetrain _ => true
  | .retrainComplete _ _ => true
  | .managementEvent _ _ => true
  | .powerOnBoot => true
  | .recoveryImage _ _ _ _ => true
  | .clusterRetiredInService _ => true
  | .managementCoreFailure _ => true
  | .fabricBusy _ => true
  | .remoteRefusal _ => true
  | .linkReplayComplete _ => true

/-- The row is an instruction word, not one of the uncoded steps. -/
def Instr.coded : Instr → Bool
  | .iadd _ _ _ _ => true
  | .isub _ _ _ _ => true
  | .iaddsI32 _ _ _ _ => true
  | .isubsI32 _ _ _ _ => true
  | .iaddsN32 _ _ _ _ => true
  | .isubsN32 _ _ _ _ => true
  | .iaddi _ _ _ _ => true
  | .imul _ _ _ _ => true
  | .imulhI32 _ _ _ _ => true
  | .imulhN32 _ _ _ _ => true
  | .imac _ _ _ _ => true
  | .iminI _ _ _ _ => true
  | .imaxI _ _ _ _ => true
  | .iminN _ _ _ _ => true
  | .imaxN _ _ _ _ => true
  | .iabs _ _ _ => true
  | .idif _ _ _ _ => true
  | .and _ _ _ _ => true
  | .or _ _ _ _ => true
  | .xor _ _ _ _ => true
  | .andn _ _ _ _ => true
  | .orn _ _ _ _ => true
  | .xnor _ _ _ _ => true
  | .shlReg _ _ _ _ => true
  | .shrReg _ _ _ _ => true
  | .sarReg _ _ _ _ => true
  | .rolReg _ _ _ _ => true
  | .shlImm _ _ _ _ => true
  | .shrImm _ _ _ _ => true
  | .sarImm _ _ _ _ => true
  | .rolImm _ _ _ _ => true
  | .popc _ _ _ => true
  | .clz _ _ _ => true
  | .brev _ _ _ => true
  | .ffs _ _ _ => true
  | .bfxN _ _ _ _ => true
  | .bfxI _ _ _ _ => true
  | .bfi _ _ _ _ => true
  | .lea _ _ _ _ _ => true
  | .movi _ _ _ => true
  | .mov _ _ _ => true
  | .movgLo _ _ _ => true
  | .movgHi _ _ _ => true
  | .mov2 _ _ _ => true
  | .srd _ _ _ => true
  | .cmov _ _ _ _ _ => true
  | .cmovD _ _ _ _ _ => true
  | .icmp _ _ _ _ _ => true
  | .fcmp _ _ _ _ _ => true
  | .pand _ _ _ _ _ => true
  | .por _ _ _ _ _ => true
  | .pxor _ _ _ _ _ => true
  | .pmov _ _ _ => true
  | .pset _ _ => true
  | .fadd _ _ _ _ _ => true
  | .fsub _ _ _ _ _ => true
  | .fmul _ _ _ _ _ _ => true
  | .fmac _ _ _ _ _ _ => true
  | .fmin _ _ _ _ _ => true
  | .fmax _ _ _ _ _ => true
  | .frcp _ _ _ => true
  | .frsq _ _ _ => true
  | .fsqrt _ _ _ => true
  | .fex2 _ _ _ => true
  | .flg2 _ _ _ => true
  | .fsinp _ _ _ => true
  | .fcosp _ _ _ => true
  | .frnd _ _ _ _ _ => true
  | .cvt _ _ _ _ _ _ => true
  | .pkn _ _ _ _ _ => true
  | .upkn _ _ _ _ _ => true
  | .pkb _ _ _ _ _ => true
  | .upkb _ _ _ _ _ => true
  | .bscl _ _ _ _ => true
  | .shfl _ _ _ _ _ => true
  | .redx _ _ _ _ => true
  | .scnx _ _ _ _ => true
  | .vote _ _ _ _ => true
  | .ld _ _ _ _ _ _ => true
  | .st _ _ _ _ _ _ => true
  | .ldf _ _ _ _ _ => true
  | .ste _ _ _ _ => true
  | .stf _ _ _ _ => true
  | .atom _ _ _ _ _ _ => true
  | .cpy _ _ _ _ _ _ => true
  | .pf _ _ _ _ => true
  | .tex _ _ _ _ _ => true
  | .tld _ _ _ _ _ => true
  | .fpost _ _ _ _ => true
  | .br _ _ _ _ _ => true
  | .brx _ _ _ _ => true
  | .call _ _ _ _ _ => true
  | .ret => true
  | .exit => true
  | .mfrg _ _ => true
  | .mtld _ _ => true
  | .mtst _ _ => true
  | .mdsc _ _ => true
  | .mend => true
  | .nop => true
  | .gadd _ _ _ _ => true
  | .gsub _ _ _ _ => true
  | .gmul _ _ _ _ => true
  | .gmulhN _ _ _ _ => true
  | .gmulhI _ _ _ _ => true
  | .gand _ _ _ _ => true
  | .gor _ _ _ _ => true
  | .gxor _ _ _ _ => true
  | .gandn _ _ _ _ => true
  | .gshl _ _ _ _ => true
  | .gshr _ _ _ _ => true
  | .gsar _ _ _ _ => true
  | .gminI _ _ _ _ => true
  | .gmaxI _ _ _ _ => true
  | .gminN _ _ _ _ => true
  | .gmaxN _ _ _ _ => true
  | .gaddi _ _ _ _ => true
  | .gmovi _ _ _ => true
  | .gcmp _ _ _ _ _ => true
  | .qand _ _ _ _ _ => true
  | .qor _ _ _ _ _ => true
  | .qxor _ _ _ _ _ => true
  | .qmov _ _ _ => true
  | .qset _ _ => true
  | .gmov _ _ _ => true
  | .gsrd _ _ _ => true
  | .glane _ _ _ _ => true
  | .gsrw _ _ _ _ => true
  | .gbr _ _ _ _ => true
  | .rep _ _ _ _ => true
  | .lit _ => true
  | .fence _ _ _ => true
  | .bara _ _ _ _ _ => true
  | .bararr _ _ _ _ _ => true
  | .barwait _ _ _ => true
  | .barref _ _ => true
  | .bardrop _ _ => true
  | .cpyseal _ => true
  | .cpywait _ _ => true
  | .mma _ _ _ _ _ => true
  | .mmaz _ _ _ _ _ => true
  | .acld _ _ _ _ _ => true
  | .acst _ _ _ _ _ => true
  | .mmwait _ _ _ => true
  | .tspawn _ _ => true
  | .qpush _ _ _ _ _ => true
  | .qpop _ _ _ => true
  | .qtry _ _ _ _ => true
  | .vgive _ _ => true
  | .vclaim _ _ => true
  | .bowchk _ _ _ _ => true
  | .bowset _ _ _ => true
  | .bowpass _ => true
  | .bowidle _ _ _ => true
  | .bowwake _ _ _ => true
  | .rtopen _ _ _ _ _ => true
  | .fseal _ _ _ => true
  | .rtsync _ _ _ => true
  | .rtrel _ _ _ => true
  | .rtclose _ _ _ => true
  | .nred _ _ _ _ => true
  | .nrwait _ _ _ _ => true
  | .yield => true
  | .trap _ => true
  | .eret => true
  | .halt => true
  | .tlbiVa _ _ _ => true
  | .tlbiAsid _ _ => true
  | .tlbiVf _ _ => true
  | .tlbiIpa _ _ _ => true
  | .tlbiS2 _ _ => true
  | .gexit => true
  | .writeSrTkill _ => false
  | .writeSrArith _ => false
  | .writeSrWdog _ => false
  | .writeSrClock _ => false
  | .writeSrTfsel _ => false
  | .writeSrMevent _ => false
  | .fill _ _ _ => false
  | .deferredTrap _ => false
  | .barrierTimeout _ _ => false
  | .tagTimeout _ _ => false
  | .rtsyncTimeout _ _ => false
  | .vclaimTimeout _ _ => false
  | .linkTimeout _ _ => false
  | .entryDue _ _ => false
  | .yieldMarkClear _ _ => false
  | .storeDrain _ => false
  | .barrierArrival _ => false
  | .copyPerformed _ _ => false
  | .leaveGrant _ => false
  | .engineTileTurn _ => false
  | .engineComplete _ => false
  | .fsealAccept _ => false
  | .frontierView _ _ => false
  | .fragmentArrival _ _ => false
  | .nredContribution _ => false
  | .launchAccept _ => false
  | .launchPlace _ _ => false
  | .staggerStart _ => false
  | .taskStart _ => false
  | .taskStealable _ _ => false
  | .taskSteal _ => false
  | .copyTaskComplete _ _ => false
  | .heatDispatch _ => false
  | .heatEnd _ _ => false
  | .pageRequest _ => false
  | .replyDoorbell _ => false
  | .completionTimeout _ => false
  | .linkDown _ => false
  | .linkUp _ => false
  | .linkLostTimeout _ => false
  | .inboundFabricRequest _ _ _ _ _ _ => false
  | .redirect _ _ _ => false
  | .qcreate _ _ _ _ => false
  | .qsubmit _ _ _ _ _ => false
  | .qdestroy _ _ _ => false
  | .createContext _ _ => false
  | .attestationReport _ _ => false
  | .setSlices _ _ => false
  | .setHpol _ _ => false
  | .setCtxmax _ _ => false
  | .setBudget _ _ _ => false
  | .assignRegion _ _ _ => false
  | .setS2root _ _ => false
  | .setPageRequestRing _ _ _ => false
  | .setReplyRing _ _ _ => false
  | .setPeers _ _ => false
  | .setWindow _ _ _ _ _ _ _ _ => false
  | .setEventQueue _ _ => false
  | .invalidate _ _ _ => false
  | .powercap _ => false
  | .preempt _ _ _ => false
  | .resume _ _ => false
  | .saveRetry _ => false
  | .kill _ _ => false
  | .migPrepare _ _ _ => false
  | .migStart _ _ _ _ => false
  | .bundleResume _ => false
  | .pagePull _ _ => false
  | .pageTransfer _ _ _ => false
  | .pageAck _ _ => false
  | .backgroundPush _ => false
  | .migEnd _ => false
  | .thermalFreeze _ => false
  | .thermalResume _ => false
  | .budgetWindow => false
  | .rowThresholdCrossing _ _ _ => false
  | .activationCountRestart _ _ => false
  | .routerPowerDown _ => false
  | .routerWake _ => false
  | .ringRetry _ _ => false
  | .scrub _ _ => false
  | .bankFailed _ _ => false
  | .rebuildDone _ => false
  | .linkReplay _ _ => false
  | .laneRepair _ _ => false
  | .linkRetrain _ => false
  | .retrainComplete _ _ => false
  | .managementEvent _ _ => false
  | .powerOnBoot => false
  | .recoveryImage _ _ _ _ => false
  | .clusterRetiredInService _ => false
  | .managementCoreFailure _ => false
  | .fabricBusy _ => false
  | .remoteRefusal _ => false
  | .linkReplayComplete _ => false

end Sys2Proof
end

