-- ==== Sys2Proof/Decode.lean ====
section
/-! DEFINITION. Sys2Proof/Decode.lean: from a 32-bit word to an instruction or a refusal by name, and back.
The fields are read as numbers (`fld`), as the tables of R40, R41, R46, R47 and R54 lay them out; the word must then pass
the checks of `Instr.wf` (R56). `encode` builds a word from the same tables. -/
namespace Sys2Proof

/-- Why a word is not an instruction (R56). All of them trap ILLEGAL_OPCODE. -/
inductive DecodeError where
  /-- No form has this S and OP. -/
  | illegalOpcode
  /-- A reserved selector value, or a field that must be zero and is not. -/
  | reservedField
  /-- A field value the form does not allow: predicate 48 to 63, broken pair or quad, reserved size. -/
  | badField
  deriving DecidableEq, Repr

/-- Bits lo + n - 1 to lo of a word. -/
def fld (w lo n : Nat) : Nat := w / 2 ^ lo % 2 ^ n

/-- One bit of a word. -/
def bit1 (w lo : Nat) : Bool := fld w lo 1 == 1

/-- A one-bit field as a number. -/
def Bool.bit (b : Bool) : Nat := if b then 1 else 0

/-- The form that S and OP (bits 31:25) and the selectors name, with its fields; reserved bits must be zero. -/
def decodeRaw (w : Nat) : Except DecodeError Instr :=
  match fld w 25 7 with
  | 1 =>
    if fld w 1 3 = 0 then .ok (.iadd (.ofNat 7 (fld w 18 7)) (.ofNat 7 (fld w 11 7)) (.ofNat 7 (fld w 4 7)) (bit1 w 0))
    else if fld w 1 3 = 1 then .ok (.isub (.ofNat 7 (fld w 18 7)) (.ofNat 7 (fld w 11 7)) (.ofNat 7 (fld w 4 7)) (bit1 w 0))
    else if fld w 1 3 = 2 then .ok (.iaddsI32 (.ofNat 7 (fld w 18 7)) (.ofNat 7 (fld w 11 7)) (.ofNat 7 (fld w 4 7)) (bit1 w 0))
    else if fld w 1 3 = 3 then .ok (.isubsI32 (.ofNat 7 (fld w 18 7)) (.ofNat 7 (fld w 11 7)) (.ofNat 7 (fld w 4 7)) (bit1 w 0))
    else if fld w 1 3 = 4 then .ok (.iaddsN32 (.ofNat 7 (fld w 18 7)) (.ofNat 7 (fld w 11 7)) (.ofNat 7 (fld w 4 7)) (bit1 w 0))
    else if fld w 1 3 = 5 then .ok (.isubsN32 (.ofNat 7 (fld w 18 7)) (.ofNat 7 (fld w 11 7)) (.ofNat 7 (fld w 4 7)) (bit1 w 0))
    else .error .reservedField
  | 2 =>
    .ok (.iaddi (.ofNat 7 (fld w 18 7)) (.ofNat 7 (fld w 11 7)) (.ofNat 10 (fld w 1 10)) (bit1 w 0))
  | 3 =>
    if fld w 1 3 = 0 then .ok (.imul (.ofNat 7 (fld w 18 7)) (.ofNat 7 (fld w 11 7)) (.ofNat 7 (fld w 4 7)) (bit1 w 0))
    else if fld w 1 3 = 1 then .ok (.imulhI32 (.ofNat 7 (fld w 18 7)) (.ofNat 7 (fld w 11 7)) (.ofNat 7 (fld w 4 7)) (bit1 w 0))
    else if fld w 1 3 = 2 then .ok (.imulhN32 (.ofNat 7 (fld w 18 7)) (.ofNat 7 (fld w 11 7)) (.ofNat 7 (fld w 4 7)) (bit1 w 0))
    else if fld w 1 3 = 3 then .ok (.imac (.ofNat 7 (fld w 18 7)) (.ofNat 7 (fld w 11 7)) (.ofNat 7 (fld w 4 7)) (bit1 w 0))
    else .error .reservedField
  | 4 =>
    if fld w 1 3 = 0 then .ok (.iminI (.ofNat 7 (fld w 18 7)) (.ofNat 7 (fld w 11 7)) (.ofNat 7 (fld w 4 7)) (bit1 w 0))
    else if fld w 1 3 = 1 then .ok (.imaxI (.ofNat 7 (fld w 18 7)) (.ofNat 7 (fld w 11 7)) (.ofNat 7 (fld w 4 7)) (bit1 w 0))
    else if fld w 1 3 = 2 then .ok (.iminN (.ofNat 7 (fld w 18 7)) (.ofNat 7 (fld w 11 7)) (.ofNat 7 (fld w 4 7)) (bit1 w 0))
    else if fld w 1 3 = 3 then .ok (.imaxN (.ofNat 7 (fld w 18 7)) (.ofNat 7 (fld w 11 7)) (.ofNat 7 (fld w 4 7)) (bit1 w 0))
    else if fld w 1 10 = 4 then .ok (.iabs (.ofNat 7 (fld w 18 7)) (.ofNat 7 (fld w 11 7)) (bit1 w 0))
    else if fld w 1 3 = 5 then .ok (.idif (.ofNat 7 (fld w 18 7)) (.ofNat 7 (fld w 11 7)) (.ofNat 7 (fld w 4 7)) (bit1 w 0))
    else .error .reservedField
  | 5 =>
    if fld w 1 3 = 0 then .ok (.and (.ofNat 7 (fld w 18 7)) (.ofNat 7 (fld w 11 7)) (.ofNat 7 (fld w 4 7)) (bit1 w 0))
    else if fld w 1 3 = 1 then .ok (.or (.ofNat 7 (fld w 18 7)) (.ofNat 7 (fld w 11 7)) (.ofNat 7 (fld w 4 7)) (bit1 w 0))
    else if fld w 1 3 = 2 then .ok (.xor (.ofNat 7 (fld w 18 7)) (.ofNat 7 (fld w 11 7)) (.ofNat 7 (fld w 4 7)) (bit1 w 0))
    else if fld w 1 3 = 3 then .ok (.andn (.ofNat 7 (fld w 18 7)) (.ofNat 7 (fld w 11 7)) (.ofNat 7 (fld w 4 7)) (bit1 w 0))
    else if fld w 1 3 = 4 then .ok (.orn (.ofNat 7 (fld w 18 7)) (.ofNat 7 (fld w 11 7)) (.ofNat 7 (fld w 4 7)) (bit1 w 0))
    else if fld w 1 3 = 5 then .ok (.xnor (.ofNat 7 (fld w 18 7)) (.ofNat 7 (fld w 11 7)) (.ofNat 7 (fld w 4 7)) (bit1 w 0))
    else .error .reservedField
  | 6 =>
    if fld w 1 3 = 0 then .ok (.shlReg (.ofNat 7 (fld w 18 7)) (.ofNat 7 (fld w 11 7)) (.ofNat 7 (fld w 4 7)) (bit1 w 0))
    else if fld w 1 3 = 1 then .ok (.shrReg (.ofNat 7 (fld w 18 7)) (.ofNat 7 (fld w 11 7)) (.ofNat 7 (fld w 4 7)) (bit1 w 0))
    else if fld w 1 3 = 2 then .ok (.sarReg (.ofNat 7 (fld w 18 7)) (.ofNat 7 (fld w 11 7)) (.ofNat 7 (fld w 4 7)) (bit1 w 0))
    else if fld w 1 3 = 3 then .ok (.rolReg (.ofNat 7 (fld w 18 7)) (.ofNat 7 (fld w 11 7)) (.ofNat 7 (fld w 4 7)) (bit1 w 0))
    else if fld w 1 3 = 4 ∧ fld w 9 2 = 0 then .ok (.shlImm (.ofNat 7 (fld w 18 7)) (.ofNat 7 (fld w 11 7)) (.ofNat 5 (fld w 4 5)) (bit1 w 0))
    else if fld w 1 3 = 5 ∧ fld w 9 2 = 0 then .ok (.shrImm (.ofNat 7 (fld w 18 7)) (.ofNat 7 (fld w 11 7)) (.ofNat 5 (fld w 4 5)) (bit1 w 0))
    else if fld w 1 3 = 6 ∧ fld w 9 2 = 0 then .ok (.sarImm (.ofNat 7 (fld w 18 7)) (.ofNat 7 (fld w 11 7)) (.ofNat 5 (fld w 4 5)) (bit1 w 0))
    else if fld w 1 3 = 7 ∧ fld w 9 2 = 0 then .ok (.rolImm (.ofNat 7 (fld w 18 7)) (.ofNat 7 (fld w 11 7)) (.ofNat 5 (fld w 4 5)) (bit1 w 0))
    else .error .reservedField
  | 7 =>
    if fld w 1 10 = 0 then .ok (.popc (.ofNat 7 (fld w 18 7)) (.ofNat 7 (fld w 11 7)) (bit1 w 0))
    else if fld w 1 10 = 1 then .ok (.clz (.ofNat 7 (fld w 18 7)) (.ofNat 7 (fld w 11 7)) (bit1 w 0))
    else if fld w 1 10 = 2 then .ok (.brev (.ofNat 7 (fld w 18 7)) (.ofNat 7 (fld w 11 7)) (bit1 w 0))
    else if fld w 1 10 = 3 then .ok (.ffs (.ofNat 7 (fld w 18 7)) (.ofNat 7 (fld w 11 7)) (bit1 w 0))
    else if fld w 1 3 = 4 then .ok (.bfxN (.ofNat 7 (fld w 18 7)) (.ofNat 7 (fld w 11 7)) (.ofNat 7 (fld w 4 7)) (bit1 w 0))
    else if fld w 1 3 = 5 then .ok (.bfxI (.ofNat 7 (fld w 18 7)) (.ofNat 7 (fld w 11 7)) (.ofNat 7 (fld w 4 7)) (bit1 w 0))
    else if fld w 1 3 = 6 then .ok (.bfi (.ofNat 7 (fld w 18 7)) (.ofNat 7 (fld w 11 7)) (.ofNat 7 (fld w 4 7)) (bit1 w 0))
    else .error .reservedField
  | 8 =>
    .ok (.lea (.ofNat 7 (fld w 18 7)) (.ofNat 7 (fld w 11 7)) (.ofNat 7 (fld w 4 7)) (.ofNat 3 (fld w 1 3)) (bit1 w 0))
  | 9 =>
    .ok (.movi (.ofNat 7 (fld w 18 7)) (.ofNat 17 (fld w 1 17)) (bit1 w 0))
  | 10 =>
    if fld w 1 10 = 0 then .ok (.mov (.ofNat 7 (fld w 18 7)) (.ofNat 7 (fld w 11 7)) (bit1 w 0))
    else if fld w 1 10 = 1 ∧ fld w 17 1 = 0 then .ok (.movgLo (.ofNat 7 (fld w 18 7)) (.ofNat 6 (fld w 11 6)) (bit1 w 0))
    else if fld w 1 10 = 2 ∧ fld w 17 1 = 0 then .ok (.movgHi (.ofNat 7 (fld w 18 7)) (.ofNat 6 (fld w 11 6)) (bit1 w 0))
    else if fld w 1 10 = 3 then .ok (.mov2 (.ofNat 7 (fld w 18 7)) (.ofNat 7 (fld w 11 7)) (bit1 w 0))
    else if fld w 1 3 = 4 ∧ fld w 16 2 = 0 then .ok (.srd (.ofNat 7 (fld w 18 7)) (.ofNat 12 (fld w 4 12)) (bit1 w 0))
    else .error .reservedField
  | 11 =>
    if fld w 1 3 = 0 then .ok (.cmov (.ofNat 7 (fld w 18 7)) (.ofNat 7 (fld w 11 7)) (.ofNat 6 (fld w 5 6)) (bit1 w 4) (bit1 w 0))
    else if fld w 1 3 = 1 then .ok (.cmovD (.ofNat 7 (fld w 18 7)) (.ofNat 7 (fld w 11 7)) (.ofNat 6 (fld w 5 6)) (bit1 w 4) (bit1 w 0))
    else .error .reservedField
  | 12 =>
    .ok (.icmp (.ofNat 6 (fld w 19 6)) (.ofNat 7 (fld w 12 7)) (.ofNat 7 (fld w 5 7)) (.ofNat 4 (fld w 1 4)) (bit1 w 0))
  | 13 =>
    .ok (.fcmp (.ofNat 6 (fld w 19 6)) (.ofNat 7 (fld w 12 7)) (.ofNat 7 (fld w 5 7)) (.ofNat 4 (fld w 1 4)) (bit1 w 0))
  | 14 =>
    if fld w 0 2 = 0 ∧ fld w 4 3 = 0 then .ok (.pand (.ofNat 6 (fld w 19 6)) (.ofNat 6 (fld w 13 6)) (.ofNat 6 (fld w 7 6)) (bit1 w 3) (bit1 w 2))
    else if fld w 0 2 = 0 ∧ fld w 4 3 = 1 then .ok (.por (.ofNat 6 (fld w 19 6)) (.ofNat 6 (fld w 13 6)) (.ofNat 6 (fld w 7 6)) (bit1 w 3) (bit1 w 2))
    else if fld w 0 2 = 0 ∧ fld w 4 3 = 2 then .ok (.pxor (.ofNat 6 (fld w 19 6)) (.ofNat 6 (fld w 13 6)) (.ofNat 6 (fld w 7 6)) (bit1 w 3) (bit1 w 2))
    else if fld w 0 3 = 0 ∧ fld w 4 9 = 3 then .ok (.pmov (.ofNat 6 (fld w 19 6)) (.ofNat 6 (fld w 13 6)) (bit1 w 3))
    else if fld w 0 2 = 0 ∧ fld w 3 16 = 8 then .ok (.pset (.ofNat 6 (fld w 19 6)) (bit1 w 2))
    else .error .reservedField
  | 15 =>
    if fld w 1 1 = 0 then .ok (.fadd (.ofNat 7 (fld w 18 7)) (.ofNat 7 (fld w 11 7)) (.ofNat 7 (fld w 4 7)) (.ofNat 2 (fld w 2 2)) (bit1 w 0))
    else if fld w 1 1 = 1 then .ok (.fsub (.ofNat 7 (fld w 18 7)) (.ofNat 7 (fld w 11 7)) (.ofNat 7 (fld w 4 7)) (.ofNat 2 (fld w 2 2)) (bit1 w 0))
    else .error .reservedField
  | 16 =>
    .ok (.fmul (.ofNat 7 (fld w 18 7)) (.ofNat 7 (fld w 11 7)) (.ofNat 7 (fld w 4 7)) (.ofNat 2 (fld w 2 2)) (bit1 w 1) (bit1 w 0))
  | 17 =>
    .ok (.fmac (.ofNat 7 (fld w 18 7)) (.ofNat 7 (fld w 11 7)) (.ofNat 7 (fld w 4 7)) (.ofNat 2 (fld w 2 2)) (bit1 w 1) (bit1 w 0))
  | 18 =>
    if fld w 1 1 = 0 then .ok (.fmin (.ofNat 7 (fld w 18 7)) (.ofNat 7 (fld w 11 7)) (.ofNat 7 (fld w 4 7)) (.ofNat 2 (fld w 2 2)) (bit1 w 0))
    else if fld w 1 1 = 1 then .ok (.fmax (.ofNat 7 (fld w 18 7)) (.ofNat 7 (fld w 11 7)) (.ofNat 7 (fld w 4 7)) (.ofNat 2 (fld w 2 2)) (bit1 w 0))
    else .error .reservedField
  | 19 =>
    if fld w 1 10 = 0 then .ok (.frcp (.ofNat 7 (fld w 18 7)) (.ofNat 7 (fld w 11 7)) (bit1 w 0))
    else if fld w 1 10 = 1 then .ok (.frsq (.ofNat 7 (fld w 18 7)) (.ofNat 7 (fld w 11 7)) (bit1 w 0))
    else if fld w 1 10 = 2 then .ok (.fsqrt (.ofNat 7 (fld w 18 7)) (.ofNat 7 (fld w 11 7)) (bit1 w 0))
    else if fld w 1 10 = 3 then .ok (.fex2 (.ofNat 7 (fld w 18 7)) (.ofNat 7 (fld w 11 7)) (bit1 w 0))
    else if fld w 1 10 = 4 then .ok (.flg2 (.ofNat 7 (fld w 18 7)) (.ofNat 7 (fld w 11 7)) (bit1 w 0))
    else if fld w 1 10 = 5 then .ok (.fsinp (.ofNat 7 (fld w 18 7)) (.ofNat 7 (fld w 11 7)) (bit1 w 0))
    else if fld w 1 10 = 6 then .ok (.fcosp (.ofNat 7 (fld w 18 7)) (.ofNat 7 (fld w 11 7)) (bit1 w 0))
    else .error .reservedField
  | 20 =>
    if fld w 6 5 = 0 then .ok (.frnd (.ofNat 7 (fld w 18 7)) (.ofNat 7 (fld w 11 7)) (.ofNat 2 (fld w 4 2)) (.ofNat 3 (fld w 1 3)) (bit1 w 0))
    else .error .reservedField
  | 21 =>
    .ok (.cvt (.ofNat 7 (fld w 18 7)) (.ofNat 7 (fld w 11 7)) (.ofNat 6 (fld w 5 6)) (.ofNat 3 (fld w 2 3)) (bit1 w 1) (bit1 w 0))
  | 22 =>
    .ok (.pkn (.ofNat 7 (fld w 18 7)) (.ofNat 7 (fld w 11 7)) (.ofNat 7 (fld w 4 7)) (.ofNat 3 (fld w 1 3)) (bit1 w 0))
  | 23 =>
    .ok (.upkn (.ofNat 7 (fld w 18 7)) (.ofNat 7 (fld w 11 7)) (.ofNat 7 (fld w 4 7)) (.ofNat 3 (fld w 1 3)) (bit1 w 0))
  | 24 =>
    .ok (.pkb (.ofNat 7 (fld w 18 7)) (.ofNat 7 (fld w 11 7)) (.ofNat 7 (fld w 4 7)) (.ofNat 3 (fld w 1 3)) (bit1 w 0))
  | 25 =>
    .ok (.upkb (.ofNat 7 (fld w 18 7)) (.ofNat 7 (fld w 11 7)) (.ofNat 7 (fld w 4 7)) (.ofNat 3 (fld w 1 3)) (bit1 w 0))
  | 26 =>
    if fld w 4 7 = 0 then .ok (.bscl (.ofNat 7 (fld w 18 7)) (.ofNat 7 (fld w 11 7)) (.ofNat 3 (fld w 1 3)) (bit1 w 0))
    else .error .reservedField
  | 27 =>
    .ok (.shfl (.ofNat 7 (fld w 18 7)) (.ofNat 7 (fld w 11 7)) (.ofNat 7 (fld w 4 7)) (.ofNat 3 (fld w 1 3)) (bit1 w 0))
  | 28 =>
    if fld w 4 7 = 0 then .ok (.redx (.ofNat 7 (fld w 18 7)) (.ofNat 7 (fld w 11 7)) (.ofNat 3 (fld w 1 3)) (bit1 w 0))
    else .error .reservedField
  | 29 =>
    if fld w 4 7 = 0 then .ok (.scnx (.ofNat 7 (fld w 18 7)) (.ofNat 7 (fld w 11 7)) (.ofNat 3 (fld w 1 3)) (bit1 w 0))
    else .error .reservedField
  | 30 =>
    if fld w 4 7 = 0 then .ok (.vote (.ofNat 7 (fld w 18 7)) (.ofNat 7 (fld w 11 7)) (.ofNat 3 (fld w 1 3)) (bit1 w 0))
    else .error .reservedField
  | 31 =>
    .ok (.ld (.ofNat 7 (fld w 18 7)) (.ofNat 7 (fld w 11 7)) (.ofNat 5 (fld w 6 5)) (.ofNat 3 (fld w 3 3)) (.ofNat 2 (fld w 1 2)) (bit1 w 0))
  | 32 =>
    .ok (.st (.ofNat 7 (fld w 18 7)) (.ofNat 7 (fld w 11 7)) (.ofNat 5 (fld w 6 5)) (.ofNat 3 (fld w 3 3)) (.ofNat 2 (fld w 1 2)) (bit1 w 0))
  | 33 =>
    if fld w 3 3 = 2 then .ok (.ldf (.ofNat 7 (fld w 18 7)) (.ofNat 7 (fld w 11 7)) (.ofNat 5 (fld w 6 5)) (.ofNat 2 (fld w 1 2)) (bit1 w 0))
    else .error .reservedField
  | 34 =>
    if fld w 1 5 = 8 then .ok (.ste (.ofNat 7 (fld w 18 7)) (.ofNat 7 (fld w 11 7)) (.ofNat 5 (fld w 6 5)) (bit1 w 0))
    else if fld w 1 5 = 9 then .ok (.stf (.ofNat 7 (fld w 18 7)) (.ofNat 7 (fld w 11 7)) (.ofNat 5 (fld w 6 5)) (bit1 w 0))
    else .error .reservedField
  | 35 =>
    .ok (.atom (.ofNat 7 (fld w 18 7)) (.ofNat 7 (fld w 11 7)) (.ofNat 5 (fld w 6 5)) (.ofNat 4 (fld w 2 4)) (bit1 w 1) (bit1 w 0))
  | 36 =>
    if fld w 1 2 = 0 then .ok (.cpy (.ofNat 7 (fld w 18 7)) (.ofNat 7 (fld w 11 7)) (.ofNat 5 (fld w 6 5)) (.ofNat 2 (fld w 4 2)) (bit1 w 3) (bit1 w 0))
    else .error .reservedField
  | 37 =>
    if fld w 3 3 = 0 ∧ fld w 18 7 = 0 then .ok (.pf (.ofNat 7 (fld w 11 7)) (.ofNat 5 (fld w 6 5)) (.ofNat 2 (fld w 1 2)) (bit1 w 0))
    else .error .reservedField
  | 38 =>
    .ok (.tex (.ofNat 7 (fld w 18 7)) (.ofNat 7 (fld w 11 7)) (.ofNat 6 (fld w 5 6)) (.ofNat 4 (fld w 1 4)) (bit1 w 0))
  | 39 =>
    if fld w 4 1 = 0 then .ok (.tld (.ofNat 7 (fld w 18 7)) (.ofNat 7 (fld w 11 7)) (.ofNat 6 (fld w 5 6)) (.ofNat 3 (fld w 1 3)) (bit1 w 0))
    else .error .reservedField
  | 40 =>
    if fld w 1 5 = 0 then .ok (.fpost (.ofNat 6 (fld w 19 6)) (.ofNat 7 (fld w 12 7)) (.ofNat 6 (fld w 6 6)) (bit1 w 0))
    else .error .reservedField
  | 41 =>
    .ok (.br (.ofNat 6 (fld w 19 6)) (bit1 w 18) (bit1 w 17) (.ofNat 4 (fld w 13 4)) (.ofNat 13 (fld w 0 13)))
  | 42 =>
    if fld w 1 5 = 0 ∧ fld w 18 7 = 0 then .ok (.brx (.ofNat 7 (fld w 11 7)) (.ofNat 4 (fld w 7 4)) (bit1 w 6) (bit1 w 0))
    else .error .reservedField
  | 43 =>
    .ok (.call (.ofNat 6 (fld w 19 6)) (bit1 w 18) (bit1 w 17) (.ofNat 4 (fld w 13 4)) (.ofNat 13 (fld w 0 13)))
  | 44 =>
    if fld w 0 25 = 0 then .ok (.ret)
    else .error .reservedField
  | 45 =>
    if fld w 0 25 = 0 then .ok (.exit)
    else .error .reservedField
  | 56 =>
    if fld w 0 7 = 0 ∧ fld w 11 7 = 0 then .ok (.mfrg (.ofNat 7 (fld w 18 7)) (.ofNat 4 (fld w 7 4)))
    else .error .reservedField
  | 57 =>
    if fld w 0 7 = 0 ∧ fld w 11 7 = 0 then .ok (.mtld (.ofNat 7 (fld w 18 7)) (.ofNat 4 (fld w 7 4)))
    else .error .reservedField
  | 58 =>
    if fld w 0 7 = 0 ∧ fld w 18 7 = 0 then .ok (.mtst (.ofNat 7 (fld w 11 7)) (.ofNat 4 (fld w 7 4)))
    else .error .reservedField
  | 59 =>
    if fld w 0 18 = 0 then .ok (.mdsc (.ofNat 6 (fld w 19 6)) (bit1 w 18))
    else .error .reservedField
  | 60 =>
    if fld w 0 25 = 0 then .ok (.mend)
    else .error .reservedField
  | 64 =>
    if fld w 0 25 = 0 then .ok (.nop)
    else .error .reservedField
  | 65 =>
    if fld w 1 6 = 0 then .ok (.gadd (.ofNat 6 (fld w 19 6)) (.ofNat 6 (fld w 13 6)) (.ofNat 6 (fld w 7 6)) (bit1 w 0))
    else if fld w 1 6 = 1 then .ok (.gsub (.ofNat 6 (fld w 19 6)) (.ofNat 6 (fld w 13 6)) (.ofNat 6 (fld w 7 6)) (bit1 w 0))
    else if fld w 1 6 = 2 then .ok (.gmul (.ofNat 6 (fld w 19 6)) (.ofNat 6 (fld w 13 6)) (.ofNat 6 (fld w 7 6)) (bit1 w 0))
    else if fld w 1 6 = 3 then .ok (.gmulhN (.ofNat 6 (fld w 19 6)) (.ofNat 6 (fld w 13 6)) (.ofNat 6 (fld w 7 6)) (bit1 w 0))
    else if fld w 1 6 = 4 then .ok (.gmulhI (.ofNat 6 (fld w 19 6)) (.ofNat 6 (fld w 13 6)) (.ofNat 6 (fld w 7 6)) (bit1 w 0))
    else if fld w 1 6 = 5 then .ok (.gand (.ofNat 6 (fld w 19 6)) (.ofNat 6 (fld w 13 6)) (.ofNat 6 (fld w 7 6)) (bit1 w 0))
    else if fld w 1 6 = 6 then .ok (.gor (.ofNat 6 (fld w 19 6)) (.ofNat 6 (fld w 13 6)) (.ofNat 6 (fld w 7 6)) (bit1 w 0))
    else if fld w 1 6 = 7 then .ok (.gxor (.ofNat 6 (fld w 19 6)) (.ofNat 6 (fld w 13 6)) (.ofNat 6 (fld w 7 6)) (bit1 w 0))
    else if fld w 1 6 = 8 then .ok (.gandn (.ofNat 6 (fld w 19 6)) (.ofNat 6 (fld w 13 6)) (.ofNat 6 (fld w 7 6)) (bit1 w 0))
    else if fld w 1 6 = 9 then .ok (.gshl (.ofNat 6 (fld w 19 6)) (.ofNat 6 (fld w 13 6)) (.ofNat 6 (fld w 7 6)) (bit1 w 0))
    else if fld w 1 6 = 10 then .ok (.gshr (.ofNat 6 (fld w 19 6)) (.ofNat 6 (fld w 13 6)) (.ofNat 6 (fld w 7 6)) (bit1 w 0))
    else if fld w 1 6 = 11 then .ok (.gsar (.ofNat 6 (fld w 19 6)) (.ofNat 6 (fld w 13 6)) (.ofNat 6 (fld w 7 6)) (bit1 w 0))
    else if fld w 1 6 = 12 then .ok (.gminI (.ofNat 6 (fld w 19 6)) (.ofNat 6 (fld w 13 6)) (.ofNat 6 (fld w 7 6)) (bit1 w 0))
    else if fld w 1 6 = 13 then .ok (.gmaxI (.ofNat 6 (fld w 19 6)) (.ofNat 6 (fld w 13 6)) (.ofNat 6 (fld w 7 6)) (bit1 w 0))
    else if fld w 1 6 = 14 then .ok (.gminN (.ofNat 6 (fld w 19 6)) (.ofNat 6 (fld w 13 6)) (.ofNat 6 (fld w 7 6)) (bit1 w 0))
    else if fld w 1 6 = 15 then .ok (.gmaxN (.ofNat 6 (fld w 19 6)) (.ofNat 6 (fld w 13 6)) (.ofNat 6 (fld w 7 6)) (bit1 w 0))
    else .error .reservedField
  | 66 =>
    .ok (.gaddi (.ofNat 6 (fld w 19 6)) (.ofNat 6 (fld w 13 6)) (.ofNat 12 (fld w 1 12)) (bit1 w 0))
  | 67 =>
    .ok (.gmovi (.ofNat 6 (fld w 19 6)) (.ofNat 18 (fld w 1 18)) (bit1 w 0))
  | 68 =>
    if fld w 1 4 = 0 then .ok (.gcmp (.ofNat 4 (fld w 21 4)) (.ofNat 6 (fld w 15 6)) (.ofNat 6 (fld w 9 6)) (.ofNat 4 (fld w 5 4)) (bit1 w 0))
    else .error .reservedField
  | 69 =>
    if fld w 0 8 = 0 ∧ fld w 10 3 = 0 then .ok (.qand (.ofNat 4 (fld w 21 4)) (.ofNat 4 (fld w 17 4)) (.ofNat 4 (fld w 13 4)) (bit1 w 9) (bit1 w 8))
    else if fld w 0 8 = 0 ∧ fld w 10 3 = 1 then .ok (.qor (.ofNat 4 (fld w 21 4)) (.ofNat 4 (fld w 17 4)) (.ofNat 4 (fld w 13 4)) (bit1 w 9) (bit1 w 8))
    else if fld w 0 8 = 0 ∧ fld w 10 3 = 2 then .ok (.qxor (.ofNat 4 (fld w 21 4)) (.ofNat 4 (fld w 17 4)) (.ofNat 4 (fld w 13 4)) (bit1 w 9) (bit1 w 8))
    else if fld w 0 9 = 0 ∧ fld w 10 7 = 3 then .ok (.qmov (.ofNat 4 (fld w 21 4)) (.ofNat 4 (fld w 17 4)) (bit1 w 9))
    else if fld w 0 8 = 0 ∧ fld w 9 12 = 8 then .ok (.qset (.ofNat 4 (fld w 21 4)) (bit1 w 8))
    else .error .reservedField
  | 70 =>
    if fld w 1 12 = 0 then .ok (.gmov (.ofNat 6 (fld w 19 6)) (.ofNat 6 (fld w 13 6)) (bit1 w 0))
    else if fld w 1 6 = 1 then .ok (.gsrd (.ofNat 6 (fld w 19 6)) (.ofNat 12 (fld w 7 12)) (bit1 w 0))
    else if fld w 1 6 = 2 then .ok (.glane (.ofNat 6 (fld w 19 6)) (.ofNat 6 (fld w 13 6)) (.ofNat 6 (fld w 7 6)) (bit1 w 0))
    else if fld w 1 6 = 3 then .ok (.gsrw (.ofNat 6 (fld w 19 6)) (.ofNat 6 (fld w 13 6)) (.ofNat 6 (fld w 7 6)) (bit1 w 0))
    else .error .reservedField
  | 71 =>
    .ok (.gbr (.ofNat 4 (fld w 21 4)) (bit1 w 20) (.ofNat 4 (fld w 16 4)) (.ofNat 16 (fld w 0 16)))
  | 73 =>
    if fld w 0 10 = 0 then .ok (.rep (.ofNat 6 (fld w 19 6)) (.ofNat 3 (fld w 16 3)) (.ofNat 3 (fld w 13 3)) (.ofNat 3 (fld w 10 3)))
    else .error .reservedField
  | 74 =>
    .ok (.lit (.ofNat 25 (fld w 0 25)))
  | 75 =>
    if fld w 0 19 = 0 then .ok (.fence (.ofNat 3 (fld w 22 3)) (.ofNat 2 (fld w 20 2)) (bit1 w 19))
    else .error .reservedField
  | 76 =>
    if fld w 4 3 = 0 ∧ fld w 11 2 = 0 then .ok (.bara (.ofNat 6 (fld w 19 6)) (.ofNat 6 (fld w 13 6)) (.ofNat 4 (fld w 7 4)) (.ofNat 3 (fld w 1 3)) (bit1 w 0))
    else .error .reservedField
  | 77 =>
    if fld w 3 4 = 0 ∧ fld w 19 6 = 0 then .ok (.bararr (.ofNat 6 (fld w 13 6)) (.ofNat 6 (fld w 7 6)) (bit1 w 2) (bit1 w 1) (bit1 w 0))
    else .error .reservedField
  | 78 =>
    if fld w 1 6 = 0 ∧ fld w 19 6 = 0 then .ok (.barwait (.ofNat 6 (fld w 13 6)) (.ofNat 6 (fld w 7 6)) (bit1 w 0))
    else .error .reservedField
  | 79 =>
    if fld w 1 12 = 0 ∧ fld w 19 6 = 0 then .ok (.barref (.ofNat 6 (fld w 13 6)) (bit1 w 0))
    else if fld w 1 12 = 1 ∧ fld w 19 6 = 0 then .ok (.bardrop (.ofNat 6 (fld w 13 6)) (bit1 w 0))
    else .error .reservedField
  | 80 =>
    if fld w 1 24 = 0 then .ok (.cpyseal (bit1 w 0))
    else .error .reservedField
  | 81 =>
    if fld w 7 18 = 0 then .ok (.cpywait (.ofNat 6 (fld w 1 6)) (bit1 w 0))
    else .error .reservedField
  | 82 =>
    if fld w 7 6 = 0 then .ok (.mma (.ofNat 6 (fld w 19 6)) (.ofNat 6 (fld w 13 6)) (.ofNat 3 (fld w 4 3)) (.ofNat 3 (fld w 1 3)) (bit1 w 0))
    else .error .reservedField
  | 83 =>
    if fld w 7 6 = 0 then .ok (.mmaz (.ofNat 6 (fld w 19 6)) (.ofNat 6 (fld w 13 6)) (.ofNat 3 (fld w 4 3)) (.ofNat 3 (fld w 1 3)) (bit1 w 0))
    else .error .reservedField
  | 84 =>
    if fld w 1 1 = 0 ∧ fld w 5 2 = 0 then .ok (.acld (.ofNat 6 (fld w 19 6)) (.ofNat 6 (fld w 13 6)) (.ofNat 6 (fld w 7 6)) (.ofNat 3 (fld w 2 3)) (bit1 w 0))
    else if fld w 1 1 = 1 ∧ fld w 5 2 = 0 then .ok (.acst (.ofNat 6 (fld w 19 6)) (.ofNat 6 (fld w 13 6)) (.ofNat 6 (fld w 7 6)) (.ofNat 3 (fld w 2 3)) (bit1 w 0))
    else .error .reservedField
  | 85 =>
    if fld w 1 12 = 0 then .ok (.mmwait (.ofNat 6 (fld w 19 6)) (.ofNat 6 (fld w 13 6)) (bit1 w 0))
    else .error .reservedField
  | 86 =>
    if fld w 1 12 = 0 ∧ fld w 19 6 = 0 then .ok (.tspawn (.ofNat 6 (fld w 13 6)) (bit1 w 0))
    else .error .reservedField
  | 87 =>
    if fld w 4 3 = 0 ∧ fld w 23 2 = 0 then .ok (.qpush (.ofNat 4 (fld w 19 4)) (.ofNat 6 (fld w 13 6)) (.ofNat 6 (fld w 7 6)) (.ofNat 3 (fld w 1 3)) (bit1 w 0))
    else .error .reservedField
  | 88 =>
    if fld w 1 12 = 0 then .ok (.qpop (.ofNat 6 (fld w 19 6)) (.ofNat 6 (fld w 13 6)) (bit1 w 0))
    else .error .reservedField
  | 89 =>
    if fld w 1 6 = 0 ∧ fld w 11 2 = 0 then .ok (.qtry (.ofNat 6 (fld w 19 6)) (.ofNat 6 (fld w 13 6)) (.ofNat 4 (fld w 7 4)) (bit1 w 0))
    else .error .reservedField
  | 90 =>
    if fld w 7 18 = 0 then .ok (.vgive (.ofNat 6 (fld w 1 6)) (bit1 w 0))
    else .error .reservedField
  | 91 =>
    if fld w 7 18 = 0 then .ok (.vclaim (.ofNat 6 (fld w 1 6)) (bit1 w 0))
    else .error .reservedField
  | 92 =>
    if fld w 1 6 = 0 then .ok (.bowchk (.ofNat 6 (fld w 19 6)) (.ofNat 6 (fld w 13 6)) (.ofNat 6 (fld w 7 6)) (bit1 w 0))
    else .error .reservedField
  | 93 =>
    if fld w 1 6 = 0 ∧ fld w 19 6 = 0 then .ok (.bowset (.ofNat 6 (fld w 13 6)) (.ofNat 6 (fld w 7 6)) (bit1 w 0))
    else .error .reservedField
  | 94 =>
    if fld w 1 24 = 0 then .ok (.bowpass (bit1 w 0))
    else .error .reservedField
  | 95 =>
    if fld w 1 6 = 0 ∧ fld w 19 6 = 0 then .ok (.bowidle (.ofNat 6 (fld w 13 6)) (.ofNat 6 (fld w 7 6)) (bit1 w 0))
    else if fld w 1 6 = 1 ∧ fld w 19 6 = 0 then .ok (.bowwake (.ofNat 6 (fld w 13 6)) (.ofNat 6 (fld w 7 6)) (bit1 w 0))
    else .error .reservedField
  | 96 =>
    if fld w 2 5 = 0 ∧ fld w 11 2 = 0 then .ok (.rtopen (.ofNat 6 (fld w 19 6)) (.ofNat 6 (fld w 13 6)) (.ofNat 4 (fld w 7 4)) (bit1 w 1) (bit1 w 0))
    else .error .reservedField
  | 97 =>
    if fld w 1 6 = 0 ∧ fld w 19 6 = 0 then .ok (.fseal (.ofNat 6 (fld w 13 6)) (.ofNat 6 (fld w 7 6)) (bit1 w 0))
    else .error .reservedField
  | 98 =>
    if fld w 1 6 = 0 ∧ fld w 19 6 = 0 then .ok (.rtsync (.ofNat 6 (fld w 13 6)) (.ofNat 6 (fld w 7 6)) (bit1 w 0))
    else .error .reservedField
  | 99 =>
    if fld w 4 9 = 0 ∧ fld w 19 6 = 0 then .ok (.rtrel (.ofNat 6 (fld w 13 6)) (.ofNat 3 (fld w 1 3)) (bit1 w 0))
    else .error .reservedField
  | 100 =>
    if fld w 1 12 = 0 then .ok (.rtclose (.ofNat 6 (fld w 19 6)) (.ofNat 6 (fld w 13 6)) (bit1 w 0))
    else .error .reservedField
  | 101 =>
    if fld w 4 3 = 0 ∧ fld w 19 6 = 0 then .ok (.nred (.ofNat 6 (fld w 13 6)) (.ofNat 6 (fld w 7 6)) (.ofNat 3 (fld w 1 3)) (bit1 w 0))
    else .error .reservedField
  | 102 =>
    if fld w 1 6 = 0 ∧ fld w 11 2 = 0 then .ok (.nrwait (.ofNat 6 (fld w 19 6)) (.ofNat 6 (fld w 13 6)) (.ofNat 4 (fld w 7 4)) (bit1 w 0))
    else .error .reservedField
  | 103 =>
    if fld w 0 25 = 0 then .ok (.yield)
    else .error .reservedField
  | 104 =>
    if fld w 0 9 = 0 then .ok (.trap (.ofNat 16 (fld w 9 16)))
    else .error .reservedField
  | 105 =>
    if fld w 0 25 = 0 then .ok (.eret)
    else .error .reservedField
  | 106 =>
    if fld w 0 25 = 0 then .ok (.halt)
    else .error .reservedField
  | 107 =>
    if fld w 1 6 = 0 ∧ fld w 19 6 = 0 then .ok (.tlbiVa (.ofNat 6 (fld w 13 6)) (.ofNat 6 (fld w 7 6)) (bit1 w 0))
    else if fld w 1 6 = 1 ∧ fld w 13 12 = 0 then .ok (.tlbiAsid (.ofNat 6 (fld w 7 6)) (bit1 w 0))
    else if fld w 1 6 = 2 ∧ fld w 13 12 = 0 then .ok (.tlbiVf (.ofNat 6 (fld w 7 6)) (bit1 w 0))
    else if fld w 1 6 = 3 ∧ fld w 19 6 = 0 then .ok (.tlbiIpa (.ofNat 6 (fld w 13 6)) (.ofNat 6 (fld w 7 6)) (bit1 w 0))
    else if fld w 1 6 = 4 ∧ fld w 13 12 = 0 then .ok (.tlbiS2 (.ofNat 6 (fld w 7 6)) (bit1 w 0))
    else .error .reservedField
  | 108 =>
    if fld w 0 25 = 0 then .ok (.gexit)
    else .error .reservedField
  | _ => .error .illegalOpcode

/-- The instruction of a word, or why it is none (R56). -/
def decode (x : Word) : Except DecodeError Instr :=
  match decodeRaw x.toNat with
  | .error e => .error e
  | .ok i => if i.wf then .ok i else .error .badField

/-- The number a coded form's word has; 0 for a step that has no word. -/
def encodeNat : Instr → Nat
  | .iadd d a b w => 33554432 + d.toNat * 262144 + a.toNat * 2048 + b.toNat * 16 + Bool.bit w
  | .isub d a b w => 33554434 + d.toNat * 262144 + a.toNat * 2048 + b.toNat * 16 + Bool.bit w
  | .iaddsI32 d a b w => 33554436 + d.toNat * 262144 + a.toNat * 2048 + b.toNat * 16 + Bool.bit w
  | .isubsI32 d a b w => 33554438 + d.toNat * 262144 + a.toNat * 2048 + b.toNat * 16 + Bool.bit w
  | .iaddsN32 d a b w => 33554440 + d.toNat * 262144 + a.toNat * 2048 + b.toNat * 16 + Bool.bit w
  | .isubsN32 d a b w => 33554442 + d.toNat * 262144 + a.toNat * 2048 + b.toNat * 16 + Bool.bit w
  | .iaddi d a i w => 67108864 + d.toNat * 262144 + a.toNat * 2048 + i.toNat * 2 + Bool.bit w
  | .imul d a b w => 100663296 + d.toNat * 262144 + a.toNat * 2048 + b.toNat * 16 + Bool.bit w
  | .imulhI32 d a b w => 100663298 + d.toNat * 262144 + a.toNat * 2048 + b.toNat * 16 + Bool.bit w
  | .imulhN32 d a b w => 100663300 + d.toNat * 262144 + a.toNat * 2048 + b.toNat * 16 + Bool.bit w
  | .imac d a b w => 100663302 + d.toNat * 262144 + a.toNat * 2048 + b.toNat * 16 + Bool.bit w
  | .iminI d a b w => 134217728 + d.toNat * 262144 + a.toNat * 2048 + b.toNat * 16 + Bool.bit w
  | .imaxI d a b w => 134217730 + d.toNat * 262144 + a.toNat * 2048 + b.toNat * 16 + Bool.bit w
  | .iminN d a b w => 134217732 + d.toNat * 262144 + a.toNat * 2048 + b.toNat * 16 + Bool.bit w
  | .imaxN d a b w => 134217734 + d.toNat * 262144 + a.toNat * 2048 + b.toNat * 16 + Bool.bit w
  | .iabs d a w => 134217736 + d.toNat * 262144 + a.toNat * 2048 + Bool.bit w
  | .idif d a b w => 134217738 + d.toNat * 262144 + a.toNat * 2048 + b.toNat * 16 + Bool.bit w
  | .and d a b w => 167772160 + d.toNat * 262144 + a.toNat * 2048 + b.toNat * 16 + Bool.bit w
  | .or d a b w => 167772162 + d.toNat * 262144 + a.toNat * 2048 + b.toNat * 16 + Bool.bit w
  | .xor d a b w => 167772164 + d.toNat * 262144 + a.toNat * 2048 + b.toNat * 16 + Bool.bit w
  | .andn d a b w => 167772166 + d.toNat * 262144 + a.toNat * 2048 + b.toNat * 16 + Bool.bit w
  | .orn d a b w => 167772168 + d.toNat * 262144 + a.toNat * 2048 + b.toNat * 16 + Bool.bit w
  | .xnor d a b w => 167772170 + d.toNat * 262144 + a.toNat * 2048 + b.toNat * 16 + Bool.bit w
  | .shlReg d a b w => 201326592 + d.toNat * 262144 + a.toNat * 2048 + b.toNat * 16 + Bool.bit w
  | .shrReg d a b w => 201326594 + d.toNat * 262144 + a.toNat * 2048 + b.toNat * 16 + Bool.bit w
  | .sarReg d a b w => 201326596 + d.toNat * 262144 + a.toNat * 2048 + b.toNat * 16 + Bool.bit w
  | .rolReg d a b w => 201326598 + d.toNat * 262144 + a.toNat * 2048 + b.toNat * 16 + Bool.bit w
  | .shlImm d a c w => 201326600 + d.toNat * 262144 + a.toNat * 2048 + c.toNat * 16 + Bool.bit w
  | .shrImm d a c w => 201326602 + d.toNat * 262144 + a.toNat * 2048 + c.toNat * 16 + Bool.bit w
  | .sarImm d a c w => 201326604 + d.toNat * 262144 + a.toNat * 2048 + c.toNat * 16 + Bool.bit w
  | .rolImm d a c w => 201326606 + d.toNat * 262144 + a.toNat * 2048 + c.toNat * 16 + Bool.bit w
  | .popc d a w => 234881024 + d.toNat * 262144 + a.toNat * 2048 + Bool.bit w
  | .clz d a w => 234881026 + d.toNat * 262144 + a.toNat * 2048 + Bool.bit w
  | .brev d a w => 234881028 + d.toNat * 262144 + a.toNat * 2048 + Bool.bit w
  | .ffs d a w => 234881030 + d.toNat * 262144 + a.toNat * 2048 + Bool.bit w
  | .bfxN d a b w => 234881032 + d.toNat * 262144 + a.toNat * 2048 + b.toNat * 16 + Bool.bit w
  | .bfxI d a b w => 234881034 + d.toNat * 262144 + a.toNat * 2048 + b.toNat * 16 + Bool.bit w
  | .bfi d a b w => 234881036 + d.toNat * 262144 + a.toNat * 2048 + b.toNat * 16 + Bool.bit w
  | .lea d a b s w => 268435456 + d.toNat * 262144 + a.toNat * 2048 + b.toNat * 16 + s.toNat * 2 + Bool.bit w
  | .movi d i w => 301989888 + d.toNat * 262144 + i.toNat * 2 + Bool.bit w
  | .mov d a w => 335544320 + d.toNat * 262144 + a.toNat * 2048 + Bool.bit w
  | .movgLo d g w => 335544322 + d.toNat * 262144 + g.toNat * 2048 + Bool.bit w
  | .movgHi d g w => 335544324 + d.toNat * 262144 + g.toNat * 2048 + Bool.bit w
  | .mov2 d a w => 335544326 + d.toNat * 262144 + a.toNat * 2048 + Bool.bit w
  | .srd d s w => 335544328 + d.toNat * 262144 + s.toNat * 16 + Bool.bit w
  | .cmov d a p n w => 369098752 + d.toNat * 262144 + a.toNat * 2048 + p.toNat * 32 + Bool.bit n * 16 + Bool.bit w
  | .cmovD d a p n w => 369098754 + d.toNat * 262144 + a.toNat * 2048 + p.toNat * 32 + Bool.bit n * 16 + Bool.bit w
  | .icmp p a b c w => 402653184 + p.toNat * 524288 + a.toNat * 4096 + b.toNat * 32 + c.toNat * 2 + Bool.bit w
  | .fcmp p a b c w => 436207616 + p.toNat * 524288 + a.toNat * 4096 + b.toNat * 32 + c.toNat * 2 + Bool.bit w
  | .pand d a b x y => 469762048 + d.toNat * 524288 + a.toNat * 8192 + b.toNat * 128 + Bool.bit x * 8 + Bool.bit y * 4
  | .por d a b x y => 469762064 + d.toNat * 524288 + a.toNat * 8192 + b.toNat * 128 + Bool.bit x * 8 + Bool.bit y * 4
  | .pxor d a b x y => 469762080 + d.toNat * 524288 + a.toNat * 8192 + b.toNat * 128 + Bool.bit x * 8 + Bool.bit y * 4
  | .pmov d a x => 469762096 + d.toNat * 524288 + a.toNat * 8192 + Bool.bit x * 8
  | .pset d y => 469762112 + d.toNat * 524288 + Bool.bit y * 4
  | .fadd d a b t w => 503316480 + d.toNat * 262144 + a.toNat * 2048 + b.toNat * 16 + t.toNat * 4 + Bool.bit w
  | .fsub d a b t w => 503316482 + d.toNat * 262144 + a.toNat * 2048 + b.toNat * 16 + t.toNat * 4 + Bool.bit w
  | .fmul d a b t n w => 536870912 + d.toNat * 262144 + a.toNat * 2048 + b.toNat * 16 + t.toNat * 4 + Bool.bit n * 2 + Bool.bit w
  | .fmac d a b t n w => 570425344 + d.toNat * 262144 + a.toNat * 2048 + b.toNat * 16 + t.toNat * 4 + Bool.bit n * 2 + Bool.bit w
  | .fmin d a b t w => 603979776 + d.toNat * 262144 + a.toNat * 2048 + b.toNat * 16 + t.toNat * 4 + Bool.bit w
  | .fmax d a b t w => 603979778 + d.toNat * 262144 + a.toNat * 2048 + b.toNat * 16 + t.toNat * 4 + Bool.bit w
  | .frcp d a w => 637534208 + d.toNat * 262144 + a.toNat * 2048 + Bool.bit w
  | .frsq d a w => 637534210 + d.toNat * 262144 + a.toNat * 2048 + Bool.bit w
  | .fsqrt d a w => 637534212 + d.toNat * 262144 + a.toNat * 2048 + Bool.bit w
  | .fex2 d a w => 637534214 + d.toNat * 262144 + a.toNat * 2048 + Bool.bit w
  | .flg2 d a w => 637534216 + d.toNat * 262144 + a.toNat * 2048 + Bool.bit w
  | .fsinp d a w => 637534218 + d.toNat * 262144 + a.toNat * 2048 + Bool.bit w
  | .fcosp d a w => 637534220 + d.toNat * 262144 + a.toNat * 2048 + Bool.bit w
  | .frnd d a t m w => 671088640 + d.toNat * 262144 + a.toNat * 2048 + t.toNat * 16 + m.toNat * 2 + Bool.bit w
  | .cvt d a c r s w => 704643072 + d.toNat * 262144 + a.toNat * 2048 + c.toNat * 32 + r.toNat * 4 + Bool.bit s * 2 + Bool.bit w
  | .pkn d a b f w => 738197504 + d.toNat * 262144 + a.toNat * 2048 + b.toNat * 16 + f.toNat * 2 + Bool.bit w
  | .upkn d a b f w => 771751936 + d.toNat * 262144 + a.toNat * 2048 + b.toNat * 16 + f.toNat * 2 + Bool.bit w
  | .pkb d a b f w => 805306368 + d.toNat * 262144 + a.toNat * 2048 + b.toNat * 16 + f.toNat * 2 + Bool.bit w
  | .upkb d a b f w => 838860800 + d.toNat * 262144 + a.toNat * 2048 + b.toNat * 16 + f.toNat * 2 + Bool.bit w
  | .bscl d a f w => 872415232 + d.toNat * 262144 + a.toNat * 2048 + f.toNat * 2 + Bool.bit w
  | .shfl d a b f w => 905969664 + d.toNat * 262144 + a.toNat * 2048 + b.toNat * 16 + f.toNat * 2 + Bool.bit w
  | .redx d a f w => 939524096 + d.toNat * 262144 + a.toNat * 2048 + f.toNat * 2 + Bool.bit w
  | .scnx d a f w => 973078528 + d.toNat * 262144 + a.toNat * 2048 + f.toNat * 2 + Bool.bit w
  | .vote d a f w => 1006632960 + d.toNat * 262144 + a.toNat * 2048 + f.toNat * 2 + Bool.bit w
  | .ld d a g z h w => 1040187392 + d.toNat * 262144 + a.toNat * 2048 + g.toNat * 64 + z.toNat * 8 + h.toNat * 2 + Bool.bit w
  | .st d a g z h w => 1073741824 + d.toNat * 262144 + a.toNat * 2048 + g.toNat * 64 + z.toNat * 8 + h.toNat * 2 + Bool.bit w
  | .ldf d a g h w => 1107296272 + d.toNat * 262144 + a.toNat * 2048 + g.toNat * 64 + h.toNat * 2 + Bool.bit w
  | .ste d a g w => 1140850704 + d.toNat * 262144 + a.toNat * 2048 + g.toNat * 64 + Bool.bit w
  | .stf d a g w => 1140850706 + d.toNat * 262144 + a.toNat * 2048 + g.toNat * 64 + Bool.bit w
  | .atom d a g o n w => 1174405120 + d.toNat * 262144 + a.toNat * 2048 + g.toNat * 64 + o.toNat * 4 + Bool.bit n * 2 + Bool.bit w
  | .cpy d a g z t w => 1207959552 + d.toNat * 262144 + a.toNat * 2048 + g.toNat * 64 + z.toNat * 16 + Bool.bit t * 8 + Bool.bit w
  | .pf a g h w => 1241513984 + a.toNat * 2048 + g.toNat * 64 + h.toNat * 2 + Bool.bit w
  | .tex d a g m w => 1275068416 + d.toNat * 262144 + a.toNat * 2048 + g.toNat * 32 + m.toNat * 2 + Bool.bit w
  | .tld d a g m w => 1308622848 + d.toNat * 262144 + a.toNat * 2048 + g.toNat * 32 + m.toNat * 2 + Bool.bit w
  | .fpost p a g w => 1342177280 + p.toNat * 524288 + a.toNat * 4096 + g.toNat * 64 + Bool.bit w
  | .br p n u r o => 1375731712 + p.toNat * 524288 + Bool.bit n * 262144 + Bool.bit u * 131072 + r.toNat * 8192 + o.toNat
  | .brx a r u w => 1409286144 + a.toNat * 2048 + r.toNat * 128 + Bool.bit u * 64 + Bool.bit w
  | .call p n u r o => 1442840576 + p.toNat * 524288 + Bool.bit n * 262144 + Bool.bit u * 131072 + r.toNat * 8192 + o.toNat
  | .ret => 1476395008
  | .exit => 1509949440
  | .mfrg d s => 1879048192 + d.toNat * 262144 + s.toNat * 128
  | .mtld d s => 1912602624 + d.toNat * 262144 + s.toNat * 128
  | .mtst a s => 1946157056 + a.toNat * 2048 + s.toNat * 128
  | .mdsc p n => 1979711488 + p.toNat * 524288 + Bool.bit n * 262144
  | .mend => 2013265920
  | .nop => 2147483648
  | .gadd d a b w => 2181038080 + d.toNat * 524288 + a.toNat * 8192 + b.toNat * 128 + Bool.bit w
  | .gsub d a b w => 2181038082 + d.toNat * 524288 + a.toNat * 8192 + b.toNat * 128 + Bool.bit w
  | .gmul d a b w => 2181038084 + d.toNat * 524288 + a.toNat * 8192 + b.toNat * 128 + Bool.bit w
  | .gmulhN d a b w => 2181038086 + d.toNat * 524288 + a.toNat * 8192 + b.toNat * 128 + Bool.bit w
  | .gmulhI d a b w => 2181038088 + d.toNat * 524288 + a.toNat * 8192 + b.toNat * 128 + Bool.bit w
  | .gand d a b w => 2181038090 + d.toNat * 524288 + a.toNat * 8192 + b.toNat * 128 + Bool.bit w
  | .gor d a b w => 2181038092 + d.toNat * 524288 + a.toNat * 8192 + b.toNat * 128 + Bool.bit w
  | .gxor d a b w => 2181038094 + d.toNat * 524288 + a.toNat * 8192 + b.toNat * 128 + Bool.bit w
  | .gandn d a b w => 2181038096 + d.toNat * 524288 + a.toNat * 8192 + b.toNat * 128 + Bool.bit w
  | .gshl d a b w => 2181038098 + d.toNat * 524288 + a.toNat * 8192 + b.toNat * 128 + Bool.bit w
  | .gshr d a b w => 2181038100 + d.toNat * 524288 + a.toNat * 8192 + b.toNat * 128 + Bool.bit w
  | .gsar d a b w => 2181038102 + d.toNat * 524288 + a.toNat * 8192 + b.toNat * 128 + Bool.bit w
  | .gminI d a b w => 2181038104 + d.toNat * 524288 + a.toNat * 8192 + b.toNat * 128 + Bool.bit w
  | .gmaxI d a b w => 2181038106 + d.toNat * 524288 + a.toNat * 8192 + b.toNat * 128 + Bool.bit w
  | .gminN d a b w => 2181038108 + d.toNat * 524288 + a.toNat * 8192 + b.toNat * 128 + Bool.bit w
  | .gmaxN d a b w => 2181038110 + d.toNat * 524288 + a.toNat * 8192 + b.toNat * 128 + Bool.bit w
  | .gaddi d a i w => 2214592512 + d.toNat * 524288 + a.toNat * 8192 + i.toNat * 2 + Bool.bit w
  | .gmovi d i w => 2248146944 + d.toNat * 524288 + i.toNat * 2 + Bool.bit w
  | .gcmp q a b c w => 2281701376 + q.toNat * 2097152 + a.toNat * 32768 + b.toNat * 512 + c.toNat * 32 + Bool.bit w
  | .qand q x y n m => 2315255808 + q.toNat * 2097152 + x.toNat * 131072 + y.toNat * 8192 + Bool.bit n * 512 + Bool.bit m * 256
  | .qor q x y n m => 2315256832 + q.toNat * 2097152 + x.toNat * 131072 + y.toNat * 8192 + Bool.bit n * 512 + Bool.bit m * 256
  | .qxor q x y n m => 2315257856 + q.toNat * 2097152 + x.toNat * 131072 + y.toNat * 8192 + Bool.bit n * 512 + Bool.bit m * 256
  | .qmov q x n => 2315258880 + q.toNat * 2097152 + x.toNat * 131072 + Bool.bit n * 512
  | .qset q m => 2315259904 + q.toNat * 2097152 + Bool.bit m * 256
  | .gmov d a w => 2348810240 + d.toNat * 524288 + a.toNat * 8192 + Bool.bit w
  | .gsrd d s w => 2348810242 + d.toNat * 524288 + s.toNat * 128 + Bool.bit w
  | .glane d a b w => 2348810244 + d.toNat * 524288 + a.toNat * 8192 + b.toNat * 128 + Bool.bit w
  | .gsrw h a l w => 2348810246 + h.toNat * 524288 + a.toNat * 8192 + l.toNat * 128 + Bool.bit w
  | .gbr q n r o => 2382364672 + q.toNat * 2097152 + Bool.bit n * 1048576 + r.toNat * 65536 + o.toNat
  | .rep c x y z => 2449473536 + c.toNat * 524288 + x.toNat * 65536 + y.toNat * 8192 + z.toNat * 1024
  | .lit l => 2483027968 + l.toNat
  | .fence s o e => 2516582400 + s.toNat * 4194304 + o.toNat * 1048576 + Bool.bit e * 524288
  | .bara d a q s w => 2550136832 + d.toNat * 524288 + a.toNat * 8192 + q.toNat * 128 + s.toNat * 2 + Bool.bit w
  | .bararr a b x r w => 2583691264 + a.toNat * 8192 + b.toNat * 128 + Bool.bit x * 4 + Bool.bit r * 2 + Bool.bit w
  | .barwait a b w => 2617245696 + a.toNat * 8192 + b.toNat * 128 + Bool.bit w
  | .barref a w => 2650800128 + a.toNat * 8192 + Bool.bit w
  | .bardrop a w => 2650800130 + a.toNat * 8192 + Bool.bit w
  | .cpyseal w => 2684354560 + Bool.bit w
  | .cpywait n w => 2717908992 + n.toNat * 2 + Bool.bit w
  | .mma d a y x w => 2751463424 + d.toNat * 524288 + a.toNat * 8192 + y.toNat * 16 + x.toNat * 2 + Bool.bit w
  | .mmaz d a y x w => 2785017856 + d.toNat * 524288 + a.toNat * 8192 + y.toNat * 16 + x.toNat * 2 + Bool.bit w
  | .acld d a b s w => 2818572288 + d.toNat * 524288 + a.toNat * 8192 + b.toNat * 128 + s.toNat * 4 + Bool.bit w
  | .acst d a b s w => 2818572290 + d.toNat * 524288 + a.toNat * 8192 + b.toNat * 128 + s.toNat * 4 + Bool.bit w
  | .mmwait d a w => 2852126720 + d.toNat * 524288 + a.toNat * 8192 + Bool.bit w
  | .tspawn a w => 2885681152 + a.toNat * 8192 + Bool.bit w
  | .qpush q a b c w => 2919235584 + q.toNat * 524288 + a.toNat * 8192 + b.toNat * 128 + c.toNat * 2 + Bool.bit w
  | .qpop d a w => 2952790016 + d.toNat * 524288 + a.toNat * 8192 + Bool.bit w
  | .qtry d a q w => 2986344448 + d.toNat * 524288 + a.toNat * 8192 + q.toNat * 128 + Bool.bit w
  | .vgive n w => 3019898880 + n.toNat * 2 + Bool.bit w
  | .vclaim n w => 3053453312 + n.toNat * 2 + Bool.bit w
  | .bowchk d a b w => 3087007744 + d.toNat * 524288 + a.toNat * 8192 + b.toNat * 128 + Bool.bit w
  | .bowset a b w => 3120562176 + a.toNat * 8192 + b.toNat * 128 + Bool.bit w
  | .bowpass w => 3154116608 + Bool.bit w
  | .bowidle a b w => 3187671040 + a.toNat * 8192 + b.toNat * 128 + Bool.bit w
  | .bowwake a b w => 3187671042 + a.toNat * 8192 + b.toNat * 128 + Bool.bit w
  | .rtopen d a q c w => 3221225472 + d.toNat * 524288 + a.toNat * 8192 + q.toNat * 128 + Bool.bit c * 2 + Bool.bit w
  | .fseal a b w => 3254779904 + a.toNat * 8192 + b.toNat * 128 + Bool.bit w
  | .rtsync a b w => 3288334336 + a.toNat * 8192 + b.toNat * 128 + Bool.bit w
  | .rtrel a s w => 3321888768 + a.toNat * 8192 + s.toNat * 2 + Bool.bit w
  | .rtclose d a w => 3355443200 + d.toNat * 524288 + a.toNat * 8192 + Bool.bit w
  | .nred a b o w => 3388997632 + a.toNat * 8192 + b.toNat * 128 + o.toNat * 2 + Bool.bit w
  | .nrwait d a q w => 3422552064 + d.toNat * 524288 + a.toNat * 8192 + q.toNat * 128 + Bool.bit w
  | .yield => 3456106496
  | .trap c => 3489660928 + c.toNat * 512
  | .eret => 3523215360
  | .halt => 3556769792
  | .tlbiVa a b w => 3590324224 + a.toNat * 8192 + b.toNat * 128 + Bool.bit w
  | .tlbiAsid b w => 3590324226 + b.toNat * 128 + Bool.bit w
  | .tlbiVf b w => 3590324228 + b.toNat * 128 + Bool.bit w
  | .tlbiIpa a b w => 3590324230 + a.toNat * 8192 + b.toNat * 128 + Bool.bit w
  | .tlbiS2 b w => 3590324232 + b.toNat * 128 + Bool.bit w
  | .gexit => 3623878656
  | .writeSrTkill _ => 0
  | .writeSrArith _ => 0
  | .writeSrWdog _ => 0
  | .writeSrClock _ => 0
  | .writeSrTfsel _ => 0
  | .writeSrMevent _ => 0
  | .fill _ _ _ => 0
  | .deferredTrap _ => 0
  | .barrierTimeout _ _ => 0
  | .tagTimeout _ _ => 0
  | .rtsyncTimeout _ _ => 0
  | .vclaimTimeout _ _ => 0
  | .linkTimeout _ _ => 0
  | .entryDue _ _ => 0
  | .yieldMarkClear _ _ => 0
  | .storeDrain _ => 0
  | .barrierArrival _ => 0
  | .copyPerformed _ _ => 0
  | .leaveGrant _ => 0
  | .engineTileTurn _ => 0
  | .engineComplete _ => 0
  | .fsealAccept _ => 0
  | .frontierView _ _ => 0
  | .fragmentArrival _ _ => 0
  | .nredContribution _ => 0
  | .launchAccept _ => 0
  | .launchPlace _ _ => 0
  | .staggerStart _ => 0
  | .taskStart _ => 0
  | .taskStealable _ _ => 0
  | .taskSteal _ => 0
  | .copyTaskComplete _ _ => 0
  | .heatDispatch _ => 0
  | .heatEnd _ _ => 0
  | .pageRequest _ => 0
  | .replyDoorbell _ => 0
  | .completionTimeout _ => 0
  | .linkDown _ => 0
  | .linkUp _ => 0
  | .linkLostTimeout _ => 0
  | .inboundFabricRequest _ _ _ _ _ _ => 0
  | .redirect _ _ _ => 0
  | .qcreate _ _ _ _ => 0
  | .qsubmit _ _ _ _ _ => 0
  | .qdestroy _ _ _ => 0
  | .createContext _ _ => 0
  | .attestationReport _ _ => 0
  | .setSlices _ _ => 0
  | .setHpol _ _ => 0
  | .setCtxmax _ _ => 0
  | .setBudget _ _ _ => 0
  | .assignRegion _ _ _ => 0
  | .setS2root _ _ => 0
  | .setPageRequestRing _ _ _ => 0
  | .setReplyRing _ _ _ => 0
  | .setPeers _ _ => 0
  | .setWindow _ _ _ _ _ _ _ _ => 0
  | .setEventQueue _ _ => 0
  | .invalidate _ _ _ => 0
  | .powercap _ => 0
  | .preempt _ _ _ => 0
  | .resume _ _ => 0
  | .saveRetry _ => 0
  | .kill _ _ => 0
  | .migPrepare _ _ _ => 0
  | .migStart _ _ _ _ => 0
  | .bundleResume _ => 0
  | .pagePull _ _ => 0
  | .pageTransfer _ _ _ => 0
  | .pageAck _ _ => 0
  | .backgroundPush _ => 0
  | .migEnd _ => 0
  | .thermalFreeze _ => 0
  | .thermalResume _ => 0
  | .budgetWindow => 0
  | .rowThresholdCrossing _ _ _ => 0
  | .activationCountRestart _ _ => 0
  | .routerPowerDown _ => 0
  | .routerWake _ => 0
  | .ringRetry _ _ => 0
  | .scrub _ _ => 0
  | .bankFailed _ _ => 0
  | .rebuildDone _ => 0
  | .linkReplay _ _ => 0
  | .laneRepair _ _ => 0
  | .linkRetrain _ => 0
  | .retrainComplete _ _ => 0
  | .managementEvent _ _ => 0
  | .powerOnBoot => 0
  | .recoveryImage _ _ _ _ => 0
  | .clusterRetiredInService _ => 0
  | .managementCoreFailure _ => 0
  | .fabricBusy _ => 0
  | .remoteRefusal _ => 0
  | .linkReplayComplete _ => 0

/-- The word of a coded instruction. -/
def encode (i : Instr) : Word := .ofNat 32 (encodeNat i)

/-- What the decoder reads from an instruction whose bits are w (every form is one 32-bit word, R37). -/
def decodeTableWord (_nbits w : Nat) : Option Instr :=
  match decode (.ofNat 32 w) with
  | .ok i => some i
  | .error _ => none

end Sys2Proof
end

