-- ==== Sys2Proof/Config.lean ====
section
/-! DEFINITION. Sys2Proof/Config.lean: what the manual leaves to the implementation. Every constant here is a FREE VALUE:
it has no body a proof can see, so a theorem holds whatever it is. Each is named in a row of notes/assumptions. -/
namespace Sys2Proof.Config

/-- Cycles that step number n takes (timing is not modelled, R4, R73; log 2). -/
opaque cycles : Nat → Nat

/-- Whether a cached copy that differs from its source is still held at step n (R190, R357, R363; log 9). -/
opaque keepCached : Nat → Bool

/-- Whether a 16-byte unit whose old or new data the manual leaves open is new: the units a failed CPY names, and those of a
copy task whose ranges overlap, or of a failing row of ACST (R158, R208, R300; log 10). -/
opaque racedNew : Nat → Nat → Bool

/-- SHA-384 of a byte string, 48 bytes (R345, R432; log 11). -/
opaque sha384 : List Byte → Vector Byte 48

/-- The bytes of the firmware image of a number (R345, R432; log 11). -/
opaque imageBytes : Nat → List Byte

/-- The RSASSA-PSS signature under the device's RSA-3072 key (R345; log 11). -/
opaque signRsa : List Byte → Vector Byte 384

/-- The SLH-DSA-SHA2-192s signature under the device key (R345; log 11). -/
opaque signSlh : List Byte → Vector Byte 16224

/-- The device's fused identity (R345; log 11). -/
opaque deviceId : Vector Byte 32

/-- Whether a memory slice misses on a 128-byte line at step n, so that its request goes to the HBM4 array; whether that
fetch evicts a modified line, and whether it activates a row (R341, R344; log 65). -/
opaque sliceMiss : Nat → Nat → Bool
opaque writesBack : Nat → Nat → Bool
opaque activates : Nat → Nat → Bool

/-- The HBM4 row of a 128-byte line (R344 gives no map; log 65). -/
opaque rowOf : Nat → Nat

/-- The 1 GiB regions of its 16 TiB range that the expander of a CXL port does not have (R348; log 66). -/
opaque cxlMissing : Nat → Nat

/-- What a die's fuses say of its nine physical clusters: 0 all good, k + 1 cluster k failed its test (R10; log 66). -/
opaque fuses : Nat → Nat

/-- The value of a function of R116 that the interval search below has not separated (log 12). -/
opaque elementary : Nat → Word → Word

/-- The effect of a stray host value the manual gives no number for: bits of step n (log 13). -/
opaque freeWord : Nat → DWord

/-- The byte that a far device returns to a copy, a task or an engine at step n for an offset (R361; log 14). -/
opaque farByte : Nat → Nat → Byte

/-- The HBM4 channel that holds a physical address (R348, R428 give no map; log 16). -/
opaque channelOf : Nat → Nat

/-- Which of n candidates a selection with no stated order takes at step m (log 17). -/
opaque choice : Nat → Nat → Nat

/-- Whether a systolic link that no operation of the far cluster takes from is full at step n (R145; log 17). -/
opaque linkFull : Nat → Bool

/-- Cycles of the package reference time that step n takes (R426, R430; log 2). -/
opaque refCycles : Nat → Nat

/-- Byte i of a record of the save area whose inner layout the manual leaves open: the record's kind, and what it holds
(R399; log 35). -/
opaque packByte : Nat → List Nat → Nat → Byte

/-- Places of the wrong symbols a scrub finds at step n (R424; log 36). -/
opaque softErrors : Nat → List Nat

end Sys2Proof.Config
end

