-- ==== Sys2Proof/Machine/State.lean ====
section
/-! DEFINITION. Sys2Proof/Machine/State.lean: everything the manual gives the machine, as plain data, and its value at reset.
Fields the manual does not name are marked MODEL; the log entry each names says why they stand here. -/
namespace Sys2Proof.Machine

/-- Physical memory: address and byte, addresses strictly rising, no entry equal to an unlisted byte (R348; log 1). -/
abbrev Memory := List Host.Cell

/-- Privilege levels (R74). -/
inductive Priv where
  | l | s | h
  deriving DecidableEq, Repr, Inhabited

/-- Group roles (R67, R289). -/
inductive Role where
  | vector | copy | matrix | any
  deriving DecidableEq, Repr, Inhabited

/-- Trap causes (R368). -/
inductive Cause where
  | illegalOpcode | uniformViolation | emptyRead | regRange | roleViolation | misaligned | rangeConflict
  | scopeDenied | accessViolation | pageNotPresent | barrierTimeout | tagTimeout | counterUnderflow
  | memoryUnavailable | uncorrectable | integrity | software | saveFault
  deriving DecidableEq, Repr, Inhabited

/-- Where a byte lies once its address is steered and translated (R187, R189, R360). -/
inductive Loc where
  /-- A physical byte of device memory. -/
  | phys (pa : Nat)
  /-- Byte `off` of the scratchpad of device core `core`. -/
  | scratch (core off : Nat)
  /-- Offset `off` of fabric window `w` of virtual function `vf`. -/
  | fabric (vf w off : Nat)
  deriving DecidableEq, Repr, Inhabited

/-- What a held access waits for: an intermediate page of a virtual function and the REASON of its request (R358). -/
structure Held where
  vf : Nat
  page : Nat
  reason : Nat
  deriving DecidableEq, Repr, Inhabited

/-- The prefixes latched before a target (R50 to R53). MODEL: `words` counts the prefix words read. -/
structure Pre where
  /-- CNT, DS, AS, BS of a REP, and the index of the next repetition. -/
  rep : Option (Nat × Nat × Nat × Nat) := none
  idx : Nat := 0
  /-- The literal of a LIT. -/
  lit : Option (BitVec 25) := none
  words : Nat := 0
  deriving DecidableEq, Repr, Inhabited

/-- A wait inside an instruction (R264, R267): the cycle at which it began (while the frontier is saved, the cycles it has
counted, R370), its SR.WDOG limit, and how far it has come. -/
structure Wait where
  start : Nat := 0
  limit : Nat := 0
  /-- Lanes of an LDF or STE already served (R198). -/
  served : Mask := 0
  /-- Values those lanes have taken. -/
  got : List (Nat × Word) := []
  /-- Words and tags as they stood before: core, word offset, value, full (R199). -/
  undo : List (Nat × Nat × Word × Bool) := []
  /-- Identity of what is waited for: a ticket, a post or a request of this entry. -/
  ref : Nat := 0
  /-- Progress step of a form with several phases (R247, R253); 7 for a wait on a tag. -/
  phase : Nat := 0
  /-- The instruction waited in, as it was decoded. -/
  instr : Instr := .nop
  /-- Lane, core, scratchpad offset and address of the words of a tagged form, and its store data. -/
  places : List (Nat × Nat × Nat × DWord) := []
  data : List (Nat × Word) := []
  /-- Operand values taken at issue. -/
  x : DWord := 0
  y : DWord := 0
  /-- MODEL: its place in the group's issue order. -/
  seq : Nat := 0
  deriving DecidableEq, Repr, Inhabited

/-- MODEL: an instruction that waits at issue for entries of a table: the step at which it first found none, and what it
asks for: (core, entries of its range-lock table) (R203), or nothing for a log reservation of its group (R378). -/
structure Queued where
  since : Nat
  asks : List (Nat × Nat) := []
  deriving DecidableEq, Repr, Inhabited

/-- One frontier entry (R263). -/
structure Entry where
  pc : DWord := 0
  pri : BitVec 4 := 0
  mask : Mask := 0
  starve : Nat := 0
  due : Bool := false
  /-- MODEL: the step at which the count reached 1,024 (R265 step 1), and the cycle at which the yield mark was set (R279);
  while the frontier is saved, the cycles the mark had counted (R374). -/
  dueAt : Nat := 0
  yield : Bool := false
  yieldAt : Nat := 0
  /-- The repetition at which a REP at this PC starts: 0, or SR.TREP after ERET (R51). -/
  resume : Nat := 0
  pre : Pre := {}
  /-- MODEL: the entry's next instruction could not issue when last tried (R264; log 3). -/
  blocked : Bool := false
  wait : Option Wait := none
  /-- Since when its instruction waits at issue for log reservations or lock entries (R203, R378). -/
  queued : Option Queued := none
  /-- A stage-2 miss of the fetch, or of an access this entry makes itself (R281, R358). -/
  held : Option Held := none
  /-- The reply to `held`, when it is a failure (R359). -/
  fail : Option Cause := none
  deriving DecidableEq, Repr, Inhabited

/-- Which instruction made an access (R378): MODEL, its number within the group; its level, word, PC, LIT and repetition. -/
structure Source where
  acc : Nat := 0
  lev : Priv := .l
  instr : Instr := .nop
  pc : DWord := 0
  lit : Option (BitVec 25) := none
  rep : Nat := 0
  deriving DecidableEq, Repr, Inhabited

/-- One lane's part of a store: its address, where it goes and its bytes. -/
structure StorePart where
  lane : Fin 128
  addr : DWord
  loc : Loc
  bytes : List Byte
  deriving DecidableEq, Repr, Inhabited

/-- A value on its way to empty destinations (R62). -/
structure Fill where
  v : List (BitVec 7 × Mask × Lanes Word) := []
  g : List (BitVec 6 × DWord) := []
  q : List (BitVec 4 × Bool) := []
  /-- A fabric transaction that brings the bytes: its number (R361). -/
  tx : Option Nat := none
  /-- The memory form it belongs to, which holds a log reservation until it arrives (R378). -/
  mem : Option Nat := none
  deriving DecidableEq, Repr, Inhabited

/-- One lane's part of an ATOM (R201): address, location, operand, cas new value. -/
structure AtomLane where
  lane : Fin 128
  addr : DWord
  loc : Loc
  x : DWord
  y : DWord
  deriving DecidableEq, Repr, Inhabited

/-- What a logged lane waits for (R379 to R382, R408, R411). -/
inductive LogWait where
  | page (h : Held)
  /-- A port, and whether the access has timed out once. -/
  | port (p : Nat) (timed : Bool)
  /-- A fabric window whose page has moved to another device. -/
  | window (w : Nat)
  | lost (c : Cause) (at_ : Nat)
  /-- Lost, with its deferred trap taken and the ERET awaited. -/
  | taken
  /-- A RETRY recorded while the context is saved. -/
  | retry
  deriving DecidableEq, Repr, Inhabited

/-- A per-lane copy in flight (R206). -/
structure CopyOp where
  gid : Nat
  batch : Nat
  /-- The level it issued at, whether it holds a shared queue entry, and whether it has left the store FIFO (R207). -/
  lev : Priv := .l
  shared : Bool := true
  ready : Bool := false
  /-- Lane, source and destination addresses. -/
  lanes : List (Fin 128 × DWord × DWord)
  n : Nat
  /-- The barrier counted down (R205, T = 1). -/
  bar : Option DWord := none
  held : Option Held := none
  /-- Intermediate pages whose requests were answered with a failure (R359). -/
  failed : List (Nat × Cause) := []
  /-- Its transaction through a port, once it is out; the port or the window it waits for; whether it has timed out once; and
  the cause with which its accesses through a port have failed (R361, R381, R411). -/
  tx : Option Nat := none
  wait : Option LogWait := none
  timed : Bool := false
  far : Option Cause := none
  deriving DecidableEq, Repr, Inhabited

/-- Forms of engine operation (R154, R157). -/
inductive EngKind where
  | mma | mmaz | acld | acst
  deriving DecidableEq, Repr, Inhabited

/-- The parameter block of MMA and MMAZ (R136, R137). -/
structure MmaBlock where
  m : Nat := 0
  n : Nat := 0
  k : Nat := 0
  aaddr : Nat := 0
  astride : Nat := 0
  baddr : Nat := 0
  bstride : Nat := 0
  row0 : Nat := 0
  col0 : Nat := 0
  ea : BitVec 8 := 0
  eb : BitVec 8 := 0
  srca : BitVec 8 := 0
  srcb : BitVec 8 := 0
  chain : BitVec 8 := 0
  deriving DecidableEq, Repr, Inhabited

/-- An operation of a group's engine queue (R147). -/
structure EngOp where
  seq : Nat
  kind : EngKind
  blk : MmaBlock := {}
  /-- Slot words: of A and B, or of the moved elements. -/
  slotA : Word := 0
  slotB : Word := 0
  /-- ACLD and ACST: address and rectangle (R157). -/
  base : DWord := 0
  rect : DWord := 0
  /-- It has left the store FIFO (R151). -/
  drained : Bool := false
  /-- The units of leave granted (R148). -/
  granted : Option Nat := none
  /-- Next result tile (R149, R156); next row of ACLD and ACST. -/
  tile : Nat := 0
  row : Nat := 0
  /-- The cycles it has waited on a link so far (R145). -/
  waited : Option Nat := none
  /-- Contexts at the far sides of the links it has used, and whether one of them has died since (R145). -/
  far : List Nat := []
  farDead : Bool := false
  /-- MODEL: the step at which it issued, which tells its streams from those of an earlier group of its slot. -/
  born : Nat := 0
  /-- ACLD and ACST: the transaction a row waits for, and whether the row's access has timed out once (R158, R381). -/
  tx : Option Nat := none
  timed : Bool := false
  /-- The end status once it is known (R160). -/
  status : Option (BitVec 8) := none
  cause : BitVec 8 := 0
  lev : Priv := .l
  held : Option Held := none
  failed : List (Nat × Cause) := []
  deriving DecidableEq, Repr, Inhabited

/-- A failure recorded against a copy batch (R208), and the step at which it appeared. -/
structure CopyFail where
  batch : Nat
  cause : Cause
  addr : DWord
  at_ : Nat := 0
  deriving DecidableEq, Repr, Inhabited

/-- One store-FIFO entry (R192). -/
inductive FifoOp where
  /-- The parts of an ST in lane order (R195). -/
  | store (src : Source) (parts : List StorePart)
  /-- ATOM: AOP, its lanes in lane order, and the destination of the old values (R201). -/
  | atom (src : Source) (aop : BitVec 4) (lanes : List AtomLane) (dst : Option (BitVec 7))
  | copy (id : Nat)
  | eng (seq : Nat)
  /-- BARARR: handle, bytes to add to TX, relaxed (R217). -/
  | arrive (handle : DWord) (tx : Nat) (relaxed : Bool)
  /-- NRED: descriptor, operation, value (R221). -/
  | nred (desc : DWord) (op : BitVec 3) (x : DWord)
  /-- FSEAL: stream handle, PSN (R250), and its place in the group's issue order. -/
  | fseal (handle : DWord) (psn : BitVec 24) (seq : Nat)
  /-- QPUSH: handle, class, value, full predicate (R295). -/
  | qpush (handle : DWord) (cls : BitVec 3) (x : DWord) (qf : BitVec 4)
  /-- BOWSET: set, tile, bow, and the byte it stores (R320). -/
  | bowset (src : Source) (set tile : Nat) (bow : Bool) (parts : List StorePart)
  /-- BOWIDLE and BOWWAKE (R327). -/
  | bowidle (set : Nat) (task : DWord) (idle : Bool)
  /-- A TSPAWN or BOWCHK that waits in its entry for its turn: the wait's place in the group's issue order (R308, R318). -/
  | mark (seq : Nat)
  /-- An STE that waits in its entry: its place in the group's issue order, and its words (R192, R198). -/
  | ste (seq : Nat) (parts : List StorePart)
  /-- An STF and its words. -/
  | stf (src : Source) (parts : List StorePart)
  /-- A TSPAWN, BOWCHK, FSEAL, TLBI or RTCLOSE whose entry GEXIT has ended, and which still takes its effect (R278), with
  the page it waits for. -/
  | late (w : Wait) (held : Option Held)
  deriving DecidableEq, Repr, Inhabited

/-- One faulted lane of a log entry: its address and its operands, or store data (R378). -/
structure LogLane where
  lane : Fin 128
  addr : DWord
  data : List Word
  wait : LogWait
  deriving DecidableEq, Repr, Inhabited

/-- One operand-log entry (R378). -/
structure LogEntry where
  src : Source
  lanes : List LogLane
  /-- The engine operation held at a row, for ACLD and ACST (R158). -/
  eng : Option Nat := none
  deriving DecidableEq, Repr, Inhabited

/-- Fragments posted and not yet all answered (R249). -/
structure Post where
  id : Nat
  pd : BitVec 6
  handle : DWord
  /-- Lanes whose acknowledgement is awaited. -/
  waiting : Mask
  deriving DecidableEq, Repr, Inhabited

/-- One resident group (R25, R59, R67, R76). -/
structure Group where
  /-- Crew key, group index in the crew, and context key (virtual function × 4096 + SR.CTX). -/
  crew : Nat := 0
  idx : Nat := 0
  ctx : Nat := 0
  core : Nat := 0
  role : Role := .any
  priv : Priv := .l
  blocks : Nat := 1
  v : Vector (Lanes Word) 128 := Vector.replicate 128 (Vector.replicate 128 0)
  /-- Lanes in which each V register is empty (R59). -/
  ve : Vector Mask 128 := Vector.replicate 128 0
  g : Vector DWord 64 := Vector.replicate 64 0
  ge : BitVec 64 := 0
  /-- P0 to P47, one bit a lane; P0 is not read from here. -/
  p : Vector Mask 48 := Vector.replicate 48 0
  pe : Vector Mask 48 := Vector.replicate 48 0
  q : BitVec 16 := 0
  qe : BitVec 16 := 0
  /-- Rounding generators (R77, R92). -/
  rng : Lanes Word := Vector.replicate 128 0
  entries : List Entry := []
  /-- Return stacks: PC and priority, newest first (R272). -/
  ret : Lanes (List (DWord × BitVec 4)) := Vector.replicate 128 []
  fifo : List FifoOp := []
  /-- MODEL: memory forms issued so far. -/
  accSeq : Nat := 0
  /-- Copy batches (R209): the open number, sealed unfinished ones, failures unreported, oldest first. -/
  batch : Nat := 0
  sealedBatches : List Nat := []
  batchFails : List CopyFail := []
  oplog : Vector (Option LogEntry) 8 := Vector.replicate 8 none
  /-- MODEL: order in which the log entries were logged, oldest first (R379). -/
  logOrder : List Nat := []
  fills : List Fill := []
  posts : List Post := []
  /-- Engine queue, last sequence number, completions kept (R147, R160): seq, status, cause, row. -/
  engq : List EngOp := []
  engSeq : Nat := 0
  engDone : List (Nat × BitVec 8 × BitVec 8 × Nat) := []
  /-- MODEL: lanes ended by EXIT, each with the number of memory forms issued before: what those forms still bring them is
  discarded (R277). -/
  exits : List (Nat × Mask) := []
  /-- The group has issued (R190, R291). -/
  begun : Bool := true
  /-- A final exit is pending at a word (R277, R399). -/
  finalExit : Bool := false
  ended : Bool := false
  /-- BOWPASS ends the firing as a pass (R326). -/
  pass : Bool := false
  halted : Bool := false
  /-- nymgar, the debugger, has stopped it (R257); no row of the opcode table stops or releases a group (log 67). -/
  stopped : Bool := false
  arith : BitVec 7 := 0
  wdog : BitVec 48 := 0x4000000
  seed : Word := 0
  tcause : Word := 0
  /-- MODEL: the cause of the last trap taken, which a write of SR.TCAUSE leaves (R377), and the memory forms issued
  before it (R375). -/
  trapCause : Nat := 0
  trapAcc : Nat := 0
  tpc : DWord := 0
  taddr : DWord := 0
  tlanes : Mask := 0
  trep : BitVec 7 := 0
  /-- SR.TINFO (R372). -/
  tinfo : Word := 0
  tbarae : Word := 0
  tbartx : DWord := 0
  tlogpc : DWord := 0
  tsavea : DWord := 0
  tsaveb : DWord := 0
  tfsel : BitVec 7 := 0
  /-- Saved entries waiting on the timed-out barrier, by index (R373, R383). -/
  tbarw : List Nat := []
  saved : List Entry := []
  /-- SR.PREEMPT and SR.SAVED (R400). -/
  preempts : Word := 0
  savedCycles : DWord := 0
  deriving DecidableEq, Repr, Inhabited

/-- A launch's fixed parameters, or a launch class's for a task (R284, R299). -/
structure Params where
  recAddr : DWord := 0
  entry : DWord := 0
  arg : DWord := 0
  handler : DWord := 0
  stack : DWord := 0
  groups : Nat := 1
  blocks : Nat := 1
  bands : Nat := 0
  scratch : Nat := 0
  /-- EXT2 and the levels 3 upward: extent, domain, scope. -/
  ext2 : Nat := 1
  levels : List (Nat × Nat × Nat) := []
  roles : BitVec 192 := 0
  slots : List Word := []
  seed : Word := 0
  stagger : Nat := 0
  wdog : BitVec 48 := 0
  done : DWord := 0
  deriving DecidableEq, Repr, Inhabited

/-- A launch in the dispatch order or running (R285, R293). -/
structure Launch where
  ctx : Nat
  params : Params
  priv : Priv := .l
  cls : Nat := 0
  /-- The queue it came from. -/
  queue : Nat := 0
  /-- Crews placed, ended; crews in all. -/
  placed : Nat := 0
  ended : Nat := 0
  crews : Nat := 1
  /-- STATUS bits 7:0 (R285). -/
  state : Nat := 1
  deriving DecidableEq, Repr, Inhabited

/-- What a crew was started for. -/
inductive Origin where
  | launch (id : Nat)
  /-- A compute or fault task: record, successor counter (R299, R302). -/
  | task (rec : DWord) (succ : DWord)
  /-- A regatta firing: set key, record (R322). -/
  | firing (set : Nat) (rec : DWord)
  deriving DecidableEq, Repr, Inhabited

/-- One resident crew (R25, R290). -/
structure Crew where
  ctx : Nat := 0
  core : Nat := 0
  /-- SR.CREW. -/
  idx : Nat := 0
  origin : Origin := .launch 0
  params : Params := {}
  groups : List Nat := []
  pool : Nat := 0
  /-- Crew waits of VCLAIM in arrival order: group, and place in its issue order (R309). -/
  claims : List (Nat × Nat) := []
  sbase : Nat := 0
  band0 : Nat := 0
  /-- It has been let issue by the stagger, and one of its groups has issued (R291). -/
  started : Bool := true
  begun : Bool := true
  deriving DecidableEq, Repr, Inhabited

/-- A transaction barrier (R213). -/
structure Barrier where
  gen : Nat := 1
  live : Bool := false
  ctx : Nat := 0
  e : Nat := 0
  a : Nat := 0
  tx : Int := 0
  done : Word := 0
  scope : BitVec 3 := 0
  refs : Nat := 0
  deriving DecidableEq, Repr, Inhabited

/-- Who holds a range-lock entry (R202). -/
inductive LockOwner where
  | copy (gid id : Nat)
  | eng (gid seq : Nat)
  | task (core id : Nat)
  deriving DecidableEq, Repr, Inhabited

/-- The spaces of R202. -/
inductive Space where
  | scratch (core : Nat)
  | local (ctx : Nat)
  | fabric (ctx : Nat)
  deriving DecidableEq, Repr, Inhabited

/-- One range-lock entry: source and destination, each a space with its first and last byte (R202). -/
structure Lock where
  owner : LockOwner
  src : Option (Space × Nat × Nat) := none
  dst : Option (Space × Nat × Nat) := none
  deriving DecidableEq, Repr, Inhabited

/-- A queued task (R297, R304, R305). -/
structure Task where
  record : DWord
  ctx : Nat
  kind : Nat
  prio : Nat
  lclass : Nat := 0
  nosteal : Bool := false
  entry : DWord := 0
  arg : DWord := 0
  succ : DWord := 0
  /-- The main operand's address (R304). -/
  main : DWord := 0
  stealable : Bool := false
  home : Nat := 0
  /-- Regatta set key of a firing (R322). -/
  set : Option Nat := none
  spilled : Bool := false
  /-- The launch-class template (R299), or of a copy task the descriptor: source, destination, bytes (R300). -/
  params : Params := {}
  copy : Option (DWord × DWord × Nat) := none
  /-- The cycle at which it joined its queue (R305). -/
  since : Nat := 0
  deriving DecidableEq, Repr, Inhabited

/-- A copy task under way (R300, R418); its number is one of its core's copies. -/
structure CopyTask where
  id : Nat := 0
  record : DWord
  ctx : Nat
  src : DWord
  dst : DWord
  size : Nat
  succ : DWord := 0
  /-- 16-byte units done (R300, R418). -/
  done : Nat := 0
  granted : Option Nat := none
  firstFail : Option (Cause × DWord) := none
  held : Option Held := none
  failed : List (Nat × Cause) := []
  deriving DecidableEq, Repr, Inhabited

/-- One core's own state (R11, R78, R190, R202, R207, R213, R304). -/
structure Core where
  /-- Scratchpad bytes not zero. -/
  mem : Memory := []
  /-- Words whose tag is empty, rising. -/
  emptyTags : List Nat := []
  barriers : KeyMap Barrier := []
  locks : List Lock := []
  /-- CPYs in flight with their lock identity (R207). -/
  copies : List (Nat × CopyOp) := []
  nextCopy : Nat := 0
  /-- L1 sectors: physical address / 16 and the 16 bytes held (R190). -/
  l1 : KeyMap (List Byte) := []
  tasks : List Task := []
  copyTasks : List CopyTask := []
  /-- Round-robin places (R261): the group slot that last took a lane, and the uniform, issue slot. -/
  laneRR : Nat := 0
  uniRR : Nat := 0
  deriving DecidableEq, Repr, Inhabited

/-- A stream on a systolic link (R145): sending cluster and link code, its header, and what it carries. -/
structure LinkStream where
  /-- Sender group and sequence number; the step at which the sending operation issued, and its context. -/
  gid : Nat
  seq : Nat
  born : Nat := 0
  ctx : Nat := 0
  /-- 0 operand A, 1 operand B, 2 chained result. -/
  kind : Nat
  slot : Word := 0
  scale : BitVec 8 := 0
  k : Nat := 0
  m : Nat := 0
  n : Nat := 0
  /-- Elements sent: row or column and k, or row and column of a result; the code or FP32 bits. -/
  data : List ((Nat × Nat) × Nat) := []
  /-- The sender's context has died (R145). -/
  dead : Bool := false
  deriving DecidableEq, Repr, Inhabited

/-- One cluster's own state (R134, R148, R149). -/
structure Cluster where
  /-- Accumulator elements not +0, by 1024 × row + column. -/
  acc : KeyMap Word := []
  budget : Nat := 4096
  out : Nat := 0
  /-- Requests for leave in arrival order: engine operations (group, seq), or copy tasks (core, record). -/
  fifo : List LockOwner := []
  /-- Group slot whose operation had the last turn (R149). -/
  rr : Nat := 0
  /-- Streams received and not yet consumed, by the link they come in on. -/
  inbox : List (Nat × LinkStream) := []
  /-- The cycle at which the last crew here issued first (R291). -/
  lastStart : Option Nat := none
  deriving DecidableEq, Repr, Inhabited

/-- One collective slot (R220 to R222). -/
structure RedSlot where
  ctx : Nat := 0
  op : BitVec 3 := 0
  count : Nat := 0
  given : List (Nat × DWord) := []
  /-- The finished round: DONE with its value, or ABORTED. -/
  result : Option (Bool × DWord) := none
  delivered : Nat := 0
  deriving DecidableEq, Repr, Inhabited

/-- A QPOP that waits on a queue (R296): its group, destination, place in the group's issue order and PC. -/
structure Waiter where
  gid : Nat
  d : BitVec 6
  seq : Nat
  pc : DWord := 0
  /-- Withdrawn while its context is saved (R392). -/
  away : Bool := false
  deriving DecidableEq, Repr, Inhabited

/-- An NRWAIT that waits on a collective slot (R222): slot key, group and its context, destination, predicate, place in the
group's issue order. -/
structure NrWait where
  slot : Nat
  gid : Nat
  ctx : Nat
  d : BitVec 6
  q : BitVec 4
  seq : Nat
  deriving DecidableEq, Repr, Inhabited

/-- A hardware queue (R292). -/
structure Queue where
  gen : Nat := 1
  live : Bool := false
  ctx : Nat := 0
  launch : Bool := false
  cap : Nat := 16
  /-- Elements in arrival order with their class. -/
  elems : List (Nat × DWord) := []
  /-- Waiting QPOPs in order (R296). -/
  waiters : List Waiter := []
  deriving DecidableEq, Repr, Inhabited

/-- A fragment (R233) and whom it answers. -/
structure Frag where
  gid : Nat := 0
  post : Nat := 0
  lane : Fin 128 := 0
  x : Nat := 0
  y : Nat := 0
  cov : BitVec 8 := 0
  psn : BitVec 24 := 0
  depth : Word := 0
  color : Word := 0
  /-- Held in a reserved slot (R235). -/
  reserved : Bool := false
  /-- Sent again after a refusal (R249). -/
  resent : Bool := false
  deriving DecidableEq, Repr, Inhabited

/-- A draw stream (R231, R234, R247). -/
structure Stream where
  gen : Nat := 1
  live : Bool := false
  ctx : Nat := 0
  desc : DWord := 0
  priv : Priv := .l
  base : DWord := 0
  dbase : DWord := 0
  clearc : DWord := 0
  cleard : Word := 0
  wm1 : Nat := 0
  hm1 : Nat := 0
  format : Nat := 0
  /-- log2 of the sample count. -/
  samples : Nat := 0
  comm : Bool := false
  method : List Word := []
  close : List Word := []
  slots : List Word := []
  /-- Plane pages as translated at RTOPEN: virtual 64 KiB page and physical page (R355). -/
  pages : KeyMap Nat := []
  f : BitVec 24 := 0
  /-- Sealed PSNs at or ahead of F. -/
  bitmap : List (BitVec 24) := []
  late : Bool := false
  /-- Views of F by Shore unit (4 × slice + unit); a unit not listed stands at its opening view 0. -/
  views : KeyMap (BitVec 24) := []
  /-- Fragments on their way, and held by a unit, in arrival order. -/
  flight : List (Nat × Frag) := []
  held : List (Nat × Frag) := []
  /-- RTCLOSE in progress: remaining steps are runs queued in `shoreQ` (R253). -/
  closing : Bool := false
  deriving DecidableEq, Repr, Inhabited

/-- A run of a method or close-method program on a Shore unit (R79, R240, R243). -/
structure Run where
  stream : Nat := 0
  isClose : Bool := false
  frag : Frag := {}
  /-- Current sample, and the samples still to run after it. -/
  sample : Nat := 0
  rest : List Nat := []
  pc : Nat := 0
  m : Vector Word 16 := Vector.replicate 16 0
  /-- P0 to P7. -/
  p : BitVec 8 := 1
  /-- Buffered writes: the address of the target word and its value (R240, R241). -/
  buf : List (Nat × Word) := []
  /-- The stage-2 miss the run waits on (R355). -/
  held : Option Held := none
  deriving DecidableEq, Repr, Inhabited

/-- A tile of a regatta set (R316). -/
structure Tile where
  holdA : DWord
  holdB : DWord
  bow : Bool
  deriving DecidableEq, Repr, Inhabited

/-- A task of a regatta set (R321, R322). -/
structure RTask where
  record : DWord
  heats : Nat := 0
  idle : Bool := false
  firing : Bool := false
  /-- The firing has ended and HEAT_END is due: whether it ended as a pass. -/
  ended : Option Bool := none
  finished : Bool := false
  tiles : List Nat := []
  task : Task := { record := 0, ctx := 0, kind := 2, prio := 0 }
  deriving DecidableEq, Repr, Inhabited

/-- A regatta set as its home dispatcher holds it (R315, R317). -/
structure RSet where
  ctx : Nat := 0
  desc : DWord := 0
  /-- The slice of its home dispatcher (R315). -/
  home : Nat := 0
  bowbase : DWord := 0
  checked : Bool := false
  opened : Bool := false
  ntasks : Nat := 0
  tiles : List Tile := []
  tasks : List RTask := []
  /-- Eligible tasks in the order they became eligible, each with whether it was idle then (R322, R325). -/
  eligible : List (DWord × Bool) := []
  finished : Nat := 0
  fires : Nat := 0
  passes : Nat := 0
  /-- Bytes of the task area reserved for the copy (R306). -/
  reserved : Nat := 0
  deriving DecidableEq, Repr, Inhabited

/-- An event-ring entry held on chip (R377). -/
structure Event where
  addr : DWord := 0
  info : DWord := 0
  kind : Nat := 0
  core : Nat := 0xFFFF
  deriving DecidableEq, Repr, Inhabited

/-- A record of the hypervisor's event queue (R426). -/
structure ErrRec where
  addr : DWord := 0
  info : DWord := 0
  kind : Nat := 0
  vf : Nat := 0xFF
  unit : Nat := 0
  ctx : Nat := 0xFFFF
  time : Nat := 0
  deriving DecidableEq, Repr, Inhabited

/-- A ring of which the Sharok is the producer (R358): base, length, next position, held records, drops, and the cycle of
the last try of the position. -/
structure Ring (α : Type) where
  base : DWord := 0
  len : Nat := 0
  pos : Nat := 0
  held : List α := []
  drops : Nat := 0
  tried : Nat := 0
  deriving DecidableEq, Repr, Inhabited

/-- Where a context stands (R390, R398). -/
inductive CtxState where
  | live | saving | saved | restoring | faulted
  deriving DecidableEq, Repr, Inhabited

/-- A live context and its record (R338). -/
structure Context where
  s1root : DWord := 0
  asid : BitVec 16 := 0
  age : Nat := 4096
  sq : Nat := 0
  lctab : DWord := 0
  rstab : DWord := 0
  rslen : Nat := 0
  taskarea : DWord := 0
  tasksize : Nat := 0
  save : DWord := 0
  events : Ring Event := {}
  state : CtxState := .live
  reason : Nat := 0
  /-- SR.CLOCK when issue stopped (R398), the part of the save area at which a faulted save or restore stands (R401), and the
  address of the last fault of its save area (R398). -/
  stopClock : DWord := 0
  frame : Nat := 0
  faultAt : Nat := 0
  /-- The cycle at which issue stopped (R400). -/
  stopAt : Nat := 0
  /-- Whether the faulted step was a save (else a restore). -/
  wasSave : Bool := true
  /-- Bytes of the task area in use (R306). -/
  areaUsed : Nat := 0
  deriving DecidableEq, Repr, Inhabited

/-- A fabric window (R360). -/
structure Window where
  rbase : DWord := 0
  limit : Nat := 0
  endpt : Nat := 0
  rvf : Nat := 0
  asid : BitVec 16 := 0
  flags : BitVec 8 := 0
  deriving DecidableEq, Repr, Inhabited

/-- A page request (R358), tagged once it is written into the ring. -/
structure PageReq where
  tag : Option Nat := none
  ipa : Nat := 0
  va : DWord := 0
  asid : Nat := 0
  ctx : Nat := 0xFFFF
  kind : Nat := 0
  reason : Nat := 0
  core : Nat := 0xFFFF
  deriving DecidableEq, Repr, Inhabited

/-- A virtual function's part in a migration (R405, R407). -/
structure Mig where
  /-- This device is the source. -/
  source : Bool
  endpt : Nat := 0
  target : Nat := 0
  /-- Die rank of each cluster rank, and the neighbour relation (R406). -/
  quiesced : Bool := false
  /-- Intermediate pages in transit, and pages the target has asked for, in order (R408). -/
  transit : List Nat := []
  asked : List Nat := []
  deriving DecidableEq, Repr, Inhabited

/-- A virtual function (R335, R349, R400). -/
structure VF where
  slices : Word := 0
  hpol : DWord := 0
  ctxmax : Nat := 1
  /-- BUDGET of each cluster's memory slices (R335). -/
  budget : Vector Nat 32 := Vector.replicate 32 28800
  /-- BUDGET as the next window takes it (R343). -/
  budgetNext : Vector Nat 32 := Vector.replicate 32 28800
  s2root : DWord := 0
  prq : Ring PageReq := { len := 64 }
  rpqbase : DWord := 0
  rpqlen : Nat := 64
  rpqpos : Nat := 0
  regions : List Nat := []
  saveRegions : List Nat := []
  peers : List (Nat × Nat) := []
  windows : KeyMap Window := []
  requests : List PageReq := []
  /-- Tags retired by a migration, whose late replies are ignored (R417). -/
  retired : List Nat := []
  clock : Nat := 0
  moves : BitVec 16 := 0
  frozen : DWord := 0
  /-- Launches taken from queues and waiting for placement, in the order of their acceptance (R293); the queues last accepted
  from and last placed from. -/
  order : List Nat := []
  lastQueue : Nat := 0
  placedQueue : Nat := 0
  /-- Elements of launch queues whose record a stage-2 miss holds (R285): queue, class, record, and the miss. -/
  acceptHeld : List (Nat × Nat × DWord × Held) := []
  mig : Option Mig := none
  /-- A save or restore fault is outstanding (R401). -/
  saveFault : Option (Nat × DWord) := none
  deriving DecidableEq, Repr, Inhabited

/-- An access of a dispatcher or a slice that waits for a page reply or for room (R285, R302, R306, R324). -/
inductive PendingKind where
  /-- A decrement of a counter, the record that names it, and the launch record whose STATUS becomes 0x03 after it (R302). -/
  | decrement (addr info : DWord) (ends : Option DWord)
  /-- A write of a launch's STATUS. -/
  | status (addr : DWord) (value : Nat) (info : DWord)
  /-- A spawn made by a slice, with the cores paired with it, and its record's bytes once they have been read (R297). -/
  | spawn (record : DWord) (others : List Nat) (read : List Byte)
  /-- A task read and checked that waits for a queue place (R306): its half-cluster's or slice's cores, and the group and
  wait of a TSPAWN. -/
  | place (t : Task) (others : List Nat) (who : Option (Nat × Nat))
  /-- The write-back of a completed set, before the decrement of its last task: writes made, and the first that failed
  (R324). -/
  | writeBack (set : Nat) (record succ : DWord) (made : Nat) (fail : Option (Cause × DWord))
  /-- The copy of STATE in a set's descriptor (R315). -/
  | setState (set : Nat)
  deriving DecidableEq, Repr, Inhabited

/-- Such an access, its context, and what it waits for. -/
structure Pending where
  ctx : Nat
  kind : PendingKind
  lev : Priv := .s
  held : Option Held := none
  deriving DecidableEq, Repr, Inhabited

/-- A cached table entry (R357): its stage, virtual function and ASID (stage 1), the level by the bit its index starts at, the
virtual or intermediate address range it covers (address / 2^sh), its physical address and its value. -/
structure WalkEntry where
  stage : Nat
  vf : Nat
  asid : BitVec 16 := 0
  sh : Nat
  part : Nat
  addr : Nat
  value : Nat
  deriving DecidableEq, Repr, Inhabited

/-- A cached translation (R357): virtual function, ASID, virtual and physical 64 KiB page, intermediate page, the
combined permissions (UL, X, W, R). -/
structure TlbEntry where
  vf : Nat
  asid : BitVec 16
  vpage : Nat
  ipage : Nat
  ppage : Nat
  ul : Bool
  x : Bool
  w : Bool
  r : Bool
  /-- log2 of the block its stage-1 leaf maps, and the table entries it was built on, of both stages. -/
  sh : Nat := 16
  path : List WalkEntry := []
  deriving DecidableEq, Repr, Inhabited

/-- An outbound fabric transaction (R361, R381). -/
structure Tx where
  id : Nat
  gid : Nat
  vf : Nat
  window : Nat
  port : Nat := 0
  /-- 0 load, 1 store, 2 atomic. -/
  kind : Nat
  lanes : List (Fin 128 × Nat)
  n : Nat := 0
  src : Source := {}
  addrs : List (Fin 128 × DWord) := []
  data : List (Fin 128 × List Word) := []
  /-- A CXL access, whose bytes the slice brings (R381). -/
  cxl : Bool := false
  retried : Bool := false
  /-- A row of ACLD or ACST: the operation's sequence number (R158). -/
  eng : Option Nat := none
  /-- A CPY: its core and number (R206, R361). -/
  copy : Option (Nat × Nat) := none
  deriving DecidableEq, Repr, Inhabited

/-- An inbound fabric request that a stage-2 miss or a page in transit holds (R362, R408, R411): who asks, the kind (0 read,
1 write, 2 atomic), the intermediate address and the data. -/
structure Inbound where
  endpt : Nat
  srcVf : Nat
  vf : Nat
  kind : Nat
  addr : DWord
  data : List Byte
  held : Held
  deriving DecidableEq, Repr, Inhabited

/-- What the state of a migrating virtual function holds apart from its pages (R405, R410). -/
structure Bundle where
  contexts : KeyMap Context := []
  groups : KeyMap Group := []
  crews : KeyMap Crew := []
  launches : KeyMap Launch := []
  queues : KeyMap Queue := []
  streams : KeyMap Stream := []
  sets : KeyMap RSet := []
  slots : KeyMap RedSlot := []
  cores : KeyMap Core := []
  clusters : KeyMap Cluster := []
  order : List Nat := []
  pending : List Pending := []
  nrwaits : List NrWait := []
  runs : List Run := []
  clock : Nat := 0
  deriving DecidableEq, Repr, Inhabited

/-- A message the device has sent: host answers, fabric requests and replies, the bundle, page data (R358, R405). -/
inductive Msg where
  | answer (ok : Bool) (v : DWord)
  | report (bytes : List Byte)
  | notice (vf : Nat)
  /-- A write that a copy or a task makes in a fabric window: endpoint, remote address, bytes (R206, R361). -/
  | farWrite (endpt addr : Nat) (data : List Byte)
  /-- A transaction of a memory form: its number, endpoint and remote addresses (R361). -/
  | transaction (id endpt : Nat) (addrs : List Nat)
  | reply (endpt : Nat) (ok : Bool) (data : List Byte)
  | busy (endpt : Nat)
  | redirect (endpt : Nat) (dest : Nat) (vf : Nat)
  | pageAsk (vf : Nat) (ipa : Nat)
  | page (vf : Nat) (ipa : Nat) (data : List Byte)
  | pageAck (vf : Nat) (ipa : Nat)
  | bundle (endpt : Nat) (vf : Nat) (b : Bundle)
  | migrated (vf : Nat)
  deriving DecidableEq, Repr, Inhabited

/-- A link's repair state (R427, R428). -/
structure Link where
  errors : Nat := 0
  spares : Nat := 2
  replay : Bool := false
  failed : Nat := 0
  /-- A lane whose repair waits on the replay. -/
  repair : Option Nat := none
  /-- Lanes moved to spares, oldest first. -/
  moved : List Nat := []
  retraining : Bool := false
  disabled : Bool := false
  deriving DecidableEq, Repr, Inhabited

/-- A port's state (R381). -/
structure Port where
  up : Bool := true
  /-- It is still down 1 ms after its loss. -/
  lost : Bool := false
  deriving DecidableEq, Repr, Inhabited

/-- An SRAM array's repair state (R424, R425). -/
structure Sram where
  /-- The bank marked failed (16 and 17 are the check banks), and the rows rebuilt so far. -/
  failed : Option Nat := none
  rebuilt : Nat := 0
  spareUsed : Bool := false
  erasure : Bool := false
  corrected : Nat := 0
  /-- Wrong symbols by row. -/
  wrong : KeyMap (List Nat) := []
  deriving DecidableEq, Repr, Inhabited

/-- One die's management state (R19, R430). -/
structure Die where
  mboot : Word := 0
  mevent : Word := 0
  mtemp : DWord := 0
  failed : Bool := false
  deriving DecidableEq, Repr, Inhabited

/-- The image in flash, as far as boot judges it (R432). -/
structure Image where
  magic : Word := 0x43524E31
  version : Nat := 1
  rsaGood : Bool := true
  slhGood : Bool := true
  /-- MODEL: the number of the image, whose bytes are free (log 11). -/
  content : Nat := 0
  deriving DecidableEq, Repr, Inhabited

/-- A request that waits at its memory slice for credits (R342): the slice, its cost, and the group and access whose fill
it brings. -/
structure SliceReq where
  slice : Nat
  cost : Nat
  who : Option (Nat × Nat) := none
  deriving DecidableEq, Repr, Inhabited

/-- Which party the step acts for (MODEL, log 3). -/
inductive Actor where
  | none
  /-- Entry `ent` of group `gid`. -/
  | group (gid ent : Nat)
  /-- The run at the head of the Shore units. -/
  | shore
  deriving DecidableEq, Repr, Inhabited

/-- The whole device. -/
structure State where
  mem : Memory := []
  /-- 64-byte lines whose stored check fails (R421, R422), and slice cache rows found uncorrectable and dirty (R423). -/
  badLines : List Nat := []
  deadLines : List Nat := []
  /-- MODEL: steps taken; feeds the free values (log 2). -/
  tick : Nat := 0
  /-- Arithmetic-clock cycles since power on (R20; log 2). -/
  cycle : Nat := 0
  /-- MODEL: the steps that the environment and the asynchronous units take next (log 3). -/
  agenda : List Instr := []
  /-- MODEL: the party that acts (log 3). -/
  cur : Actor := .none
  dies : Vector Die 4 := Vector.replicate 4 {}
  image : Image := {}
  minVersion : Nat := 0
  /-- SR.MREFTIME (R430). -/
  refTime : Nat := 0
  /-- Clock step over 1.5 GHz now in force (R20, R339). -/
  clkStep : Nat := 0
  frozen : Bool := false
  /-- SR.MREFTIME when the freeze began (R73, R404). -/
  frozenAt : Nat := 0
  watts : Nat := 2800
  /-- Physical cluster within its die of each logical cluster, and clusters not exposed (R10). -/
  remap : Vector Nat 32 := Vector.ofFn fun c => c.val % 8
  /-- Physical core, and physical memory slice, within its die of each logical one (R10). -/
  remapCores : Vector Nat 256 := Vector.ofFn fun c => c.val % 64
  remapSlices : Vector Nat 64 := Vector.ofFn fun c => c.val % 16
  hidden : List Nat := []
  /-- Dies whose spare cluster is in use, and channels absent (R10, R428). -/
  spareUsed : List Nat := []
  absent : List Nat := []
  evq : Ring ErrRec := {}
  links : KeyMap Link := []
  ports : KeyMap Port := []
  srams : KeyMap Sram := []
  /-- Routers powered down (R312). -/
  routersOff : List Nat := []
  /-- Routers that a wake reached, with the cycle of the last one (R312). -/
  routersWoke : KeyMap Nat := []
  rowThresh : Nat := 512
  rowDelay : Nat := 256
  /-- Activations by memory slice, row and virtual function (R344). -/
  rows : List ((Nat × Nat × Nat) × Nat) := []
  /-- Credits spent in this window by memory slice, and delays charged (R342, R344). -/
  spent : KeyMap Nat := []
  /-- Requests that wait at their slices for the next window, in arrival order (R342). -/
  sliceWait : List SliceReq := []
  /-- Physical regions of the firmware and hypervisor (R348). -/
  fwRegions : List Nat := []
  vfs : KeyMap VF := []
  contexts : KeyMap Context := []
  launches : KeyMap Launch := []
  nextLaunch : Nat := 0
  crews : KeyMap Crew := []
  nextCrew : Nat := 0
  groups : KeyMap Group := []
  cores : KeyMap Core := []
  clusters : KeyMap Cluster := []
  queues : KeyMap Queue := []
  slots : KeyMap RedSlot := []
  /-- NRWAITs waiting (R222). -/
  nrwaits : List NrWait := []
  streams : KeyMap Stream := []
  /-- Runs queued on the Shore units; the head is the active one (R240). -/
  shoreQ : List Run := []
  /-- Runs that wait on a page, and the later ones of the same pixels, in order (R355). -/
  shoreHeld : List Run := []
  sets : KeyMap RSet := []
  tlb : List TlbEntry := []
  /-- Table entries the walkers hold (R357). -/
  walks : List WalkEntry := []
  pending : List Pending := []
  /-- Contexts that have died and whose held events still wait for their rings (R377): key and record. -/
  deadRings : List (Nat × Context) := []
  txs : List Tx := []
  inbound : List Inbound := []
  nextTx : Nat := 0
  /-- What the device has sent outside, newest first (MODEL, log 14). -/
  sent : List Msg := []
  /-- Bundles received for a target virtual function (R405). -/
  bundles : KeyMap Bundle := []
  deriving DecidableEq, Repr, Inhabited

/-- Why the model stops. -/
inductive Fault where
  /-- Raised by the meaning of an instruction word when no group entry and no Shore run acts, or the acting one does not
  exist. Safe: step sets the acting party before it runs a word. -/
  | noActor
  deriving DecidableEq, Repr, Inhabited

/-- Why the model gives no meaning. -/
inductive Refusal where
  /-- Raised by an arm of exec not written yet. Safe. -/
  | notModelled (mnemonic : String)
  deriving DecidableEq, Repr, Inhabited

/-- The machine right after power on: no virtual function exists (R335), no group runs, the firmware has not booted
(R432, the agenda brings POWER_ON_BOOT; log 4), every memory byte unlisted (log 1). -/
def State.reset : State := {}

end Sys2Proof.Machine
end

