-- ==== Sys2Proof/Machine/Flags.lean ====
section
/-! DEFINITION. Sys2Proof/Machine/Flags.lean: the sticky flags of SR.ARITH (R69) and the flag rules of integer saturation
(R100). The flags of narrowing are raised where the value is narrowed (Numbers.lean, R91). -/
namespace Sys2Proof.Machine

/-- A set of SR.ARITH flags, bits as R69 numbers them. -/
abbrev Flags := BitVec 7

/-- Invalid operation. -/
def flagNV : Flags := 0x01
/-- Division of a finite non-zero value by zero. -/
def flagDZ : Flags := 0x02
/-- Overflow. -/
def flagOF : Flags := 0x04
/-- Underflow. -/
def flagUF : Flags := 0x08
/-- Inexact. -/
def flagNX : Flags := 0x10
/-- Saturated conversion. -/
def flagSAT : Flags := 0x20
/-- A NaN was converted to a format without NaN. -/
def flagNanLost : Flags := 0x40

/-- The flag if the event happened. -/
def flagIf (b : Bool) (f : Flags) : Flags := if b then f else 0

/-- A 32-bit value as i32 (R81). -/
def sInt (x : Word) : Int := x.toInt

/-- Sat(T, x) of R100 for the range lo to hi, with the SAT flag. -/
def satTo (lo hi x : Int) : Word × Flags :=
  if x < lo then (.ofInt 32 lo, flagSAT)
  else if hi < x then (.ofInt 32 hi, flagSAT)
  else (.ofInt 32 x, 0)

/-- Sat(i32, x). -/
def satI32 (x : Int) : Word × Flags := satTo (-2147483648) 2147483647 x

/-- Sat(n32, x). -/
def satN32 (x : Int) : Word × Flags := satTo 0 4294967295 x

end Sys2Proof.Machine
end

