-- ==== Sys2Proof/Machine/Numbers.lean ====
section
/-! DEFINITION. Sys2Proof/Machine/Numbers.lean: number formats, the narrowing procedure, stochastic rounding and the
elementary functions (R80 to R96, R115 to R117, R119). Values are exact: a sign, a natural number and a power of two. -/
namespace Sys2Proof.Machine

/-- An exact value: NaN, an infinity, or (-1)^neg × m × 2^e; m = 0 is a signed zero. -/
inductive Val where
  | nan
  | inf (neg : Bool)
  | fin (neg : Bool) (m : Nat) (e : Int)
  deriving DecidableEq, Repr

/-- The floating formats of R82 and R84. -/
inductive Fmt where
  | f64 | f32 | f16 | bf16 | e5m2 | e4m3 | e2m1
  deriving DecidableEq, Repr

/-- Exponent bits. -/
def Fmt.ebits : Fmt → Nat
  | .f64 => 11 | .f32 => 8 | .f16 => 5 | .bf16 => 8 | .e5m2 => 5 | .e4m3 => 4 | .e2m1 => 2

/-- Fraction bits. -/
def Fmt.fbits : Fmt → Nat
  | .f64 => 52 | .f32 => 23 | .f16 => 10 | .bf16 => 7 | .e5m2 => 2 | .e4m3 => 3 | .e2m1 => 1

/-- Bias. -/
def Fmt.bias : Fmt → Nat
  | .f64 => 1023 | .f32 => 127 | .f16 => 15 | .bf16 => 127 | .e5m2 => 15 | .e4m3 => 7 | .e2m1 => 1

/-- Width in bits. -/
def Fmt.width (f : Fmt) : Nat := 1 + f.ebits + f.fbits

/-- The code of the largest finite magnitude. -/
def Fmt.maxCode : Fmt → Nat
  | .f64 => 0x7FEFFFFFFFFFFFFF | .f32 => 0x7F7FFFFF | .f16 => 0x7BFF | .bf16 => 0x7F7F
  | .e5m2 => 0x7B | .e4m3 => 0x7E | .e2m1 => 0x7

/-- The code an infinity of the format has; E4M3 and E2M1 have none. -/
def Fmt.infCode : Fmt → Option Nat
  | .f64 => some 0x7FF0000000000000 | .f32 => some 0x7F800000 | .f16 => some 0x7C00 | .bf16 => some 0x7F80
  | .e5m2 => some 0x7C | .e4m3 => none | .e2m1 => none

/-- The canonical NaN; E2M1 has none and takes +6 (R91). -/
def Fmt.nanCode : Fmt → Nat
  | .f64 => 0x7FF8000000000000 | .f32 => 0x7FC00000 | .f16 => 0x7E00 | .bf16 => 0x7FC0
  | .e5m2 => 0x7E | .e4m3 => 0x7F | .e2m1 => 0x7

/-- The exponent of the smallest subnormal: 1 - bias - fraction bits. -/
def Fmt.qmin (f : Fmt) : Int := 1 - f.bias - f.fbits

/-- The value of a code (R82 to R85). -/
def decodeF (f : Fmt) (bits : Nat) : Val :=
  let mag := bits % 2 ^ (f.ebits + f.fbits)
  let neg := bits / 2 ^ (f.ebits + f.fbits) % 2 == 1
  let ex := mag / 2 ^ f.fbits
  let fr := mag % 2 ^ f.fbits
  if mag > f.maxCode then
    if f.infCode == some mag then .inf neg else .nan
  else if ex = 0 then .fin neg fr f.qmin
  else .fin neg (2 ^ f.fbits + fr) (f.qmin + (ex - 1 : Nat))

/-- Rounding modes (R89, R117, R119); SR carries the drawn word rw (R90). -/
inductive RMode where
  | rne | rna | rtz | flr | ceil
  | sr (rw : Nat)
  deriving DecidableEq, Repr

/-- Whether |y| = (n + r / 2^k) × u is rounded up in magnitude (R90, R119). -/
def roundUp (mode : RMode) (neg : Bool) (n r k : Nat) : Bool :=
  match mode with
  | .rne => 2 ^ k < 2 * r || (2 ^ k == 2 * r && n % 2 == 1)
  | .rna => 2 ^ k ≤ 2 * r
  | .rtz => false
  | .flr => r != 0 && neg
  | .ceil => r != 0 && !neg
  | .sr rw =>
    let d := r * 65536 / 2 ^ k
    let l := r * 65536 % 2 ^ k != 0
    rw < d || (d == rw && l)

/-- m × 2^e in units of 2^q: the rounded count and whether anything was lost. -/
def roundAt (mode : RMode) (neg : Bool) (m : Nat) (e q : Int) : Nat × Bool :=
  if q ≤ e then (m * 2 ^ (e - q).toNat, false)
  else
    let k := (q - e).toNat
    let n := m / 2 ^ k
    let r := m % 2 ^ k
    (n + (if roundUp mode neg n r k then 1 else 0), r != 0)

/-- Set the sign bit of a code. -/
def signed (f : Fmt) (neg : Bool) (mag : Nat) : Nat := if neg then 2 ^ (f.ebits + f.fbits) + mag else mag

/-- Narrow(x, fmt, mode, sat, t) of R90 and R91 for the floating formats: the code and the flags. -/
def narrowF (f : Fmt) (mode : RMode) (sat : Bool) (t : Int) (x : Val) : Nat × Flags :=
  match x with
  | .nan => (f.nanCode, if f == .e2m1 then flagNanLost else 0)
  | .inf neg =>
    match f.infCode with
    | some c => (signed f neg c, 0)
    | none =>
      if f == .e4m3 && !sat then (f.nanCode, flagNV)
      else (signed f neg f.maxCode, flagSAT ||| flagNX)
  | .fin neg m e0 =>
    if m = 0 then (signed f neg 0, 0)
    else
      let e := e0 + t
      let qn : Int := (m.log2 : Int) + e - f.fbits
      let q := max qn f.qmin
      let (n, lost) := roundAt mode neg m e q
      let mag := (q - f.qmin).toNat * 2 ^ f.fbits + n
      if mag > f.maxCode then
        if f == .e2m1 || sat then (signed f neg f.maxCode, flagOF ||| flagSAT ||| flagNX)
        else match f.infCode with
          | some c => (signed f neg c, flagOF ||| flagNX)
          | none => (f.nanCode, flagOF)
      else
        let n2 := (roundAt mode neg m e qn).1
        let tiny := qn < f.qmin && !(n2 == 2 ^ (f.fbits + 1) && qn + 1 == f.qmin) && n2 != 0
        (signed f neg mag, flagIf lost flagNX ||| flagIf (lost && tiny) flagUF)

/-- Narrowing into an integer type of range lo to hi (R90, R91): always saturates. -/
def narrowI (lo hi : Int) (mode : RMode) (t : Int) (x : Val) : Int × Flags :=
  match x with
  | .nan => (0, flagNV ||| flagNanLost)
  | .inf neg => (if neg then lo else hi, flagSAT ||| flagNX)
  | .fin neg m e =>
    let (n, lost) := roundAt mode neg m (e + t) 0
    let v : Int := if neg then -(n : Int) else n
    if v < lo then (lo, flagSAT ||| flagNX)
    else if hi < v then (hi, flagSAT ||| flagNX)
    else (v, flagIf lost flagNX)

/-- An integer as an exact value. -/
def ofInteger (i : Int) : Val := .fin (i < 0) i.natAbs 0

/-- Exact negation (R114). -/
def Val.neg : Val → Val
  | .nan => .nan
  | .inf n => .inf (!n)
  | .fin n m e => .fin (!n) m e

/-- Multiply by a power of two, exactly. -/
def Val.scale (t : Int) : Val → Val
  | .fin n m e => .fin n m (e + t)
  | v => v

/-- The exact sum of finite values; an exact zero sum is +0 unless both are -0 (R83). -/
def addFin (n1 : Bool) (m1 : Nat) (e1 : Int) (n2 : Bool) (m2 : Nat) (e2 : Int) : Val :=
  let e := min e1 e2
  let a : Int := (m1 : Int) * 2 ^ (e1 - e).toNat
  let b : Int := (m2 : Int) * 2 ^ (e2 - e).toNat
  let s := (if n1 then -a else a) + (if n2 then -b else b)
  if s = 0 then .fin (m1 == 0 && m2 == 0 && n1 && n2) 0 0
  else .fin (s < 0) s.natAbs e

/-- a + b exactly, with NV for ∞ - ∞ (R115). -/
def addV (a b : Val) : Val × Flags :=
  match a, b with
  | .nan, _ => (.nan, 0)
  | _, .nan => (.nan, 0)
  | .inf x, .inf y => if x == y then (.inf x, 0) else (.nan, flagNV)
  | .inf x, .fin _ _ _ => (.inf x, 0)
  | .fin _ _ _, .inf y => (.inf y, 0)
  | .fin n1 m1 e1, .fin n2 m2 e2 => (addFin n1 m1 e1 n2 m2 e2, 0)

/-- a × b exactly, with NV for 0 × ∞ (R115). -/
def mulV (a b : Val) : Val × Flags :=
  match a, b with
  | .nan, _ => (.nan, 0)
  | _, .nan => (.nan, 0)
  | .inf x, .inf y => (.inf (x != y), 0)
  | .inf x, .fin n m _ => if m = 0 then (.nan, flagNV) else (.inf (x != n), 0)
  | .fin n m _, .inf y => if m = 0 then (.nan, flagNV) else (.inf (n != y), 0)
  | .fin n1 m1 e1, .fin n2 m2 e2 => (.fin (n1 != n2) (m1 * m2) (e1 + e2), 0)

/-- a + b rounded once by RNE into f (R114, R115). -/
def fadd (f : Fmt) (a b : Nat) : Nat × Flags :=
  let (s, g) := addV (decodeF f a) (decodeF f b)
  let (c, h) := narrowF f .rne false 0 s
  (c, g ||| h)

/-- a - b. -/
def fsub (f : Fmt) (a b : Nat) : Nat × Flags :=
  let (s, g) := addV (decodeF f a) (decodeF f b).neg
  let (c, h) := narrowF f .rne false 0 s
  (c, g ||| h)

/-- a × b, or a × -b (R115). -/
def fmul (f : Fmt) (negB : Bool) (a b : Nat) : Nat × Flags :=
  let y := decodeF f b
  let (p, g) := mulV (decodeF f a) (if negB then y.neg else y)
  let (c, h) := narrowF f .rne false 0 p
  (c, g ||| h)

/-- a × b' + d with one rounding (R115). -/
def fmac (f : Fmt) (negB : Bool) (a b d : Nat) : Nat × Flags :=
  let y := decodeF f b
  let (p, g) := mulV (decodeF f a) (if negB then y.neg else y)
  let (s, g') := addV p (decodeF f d)
  let (c, h) := narrowF f .rne false 0 s
  (c, g ||| g' ||| h)

/-- The order of two values that are not NaN, -0 equal to +0. -/
def leV (a b : Val) : Bool :=
  match a, b with
  | .nan, _ => false
  | _, .nan => false
  | .inf x, .inf y => x || !y
  | .inf x, .fin _ _ _ => x
  | .fin _ _ _, .inf y => !y
  | .fin n1 m1 e1, .fin n2 m2 e2 =>
    let e := min e1 e2
    let x : Int := (m1 : Int) * 2 ^ (e1 - e).toNat
    let y : Int := (m2 : Int) * 2 ^ (e2 - e).toNat
    (if n1 then -x else x) ≤ (if n2 then -y else y)

/-- The sign of a value that is not NaN. -/
def Val.isNeg : Val → Bool
  | .nan => false
  | .inf n => n
  | .fin n _ _ => n

/-- A NaN. -/
def Val.isNan : Val → Bool
  | .nan => true
  | _ => false

/-- A value of zero magnitude. -/
def Val.isZero : Val → Bool
  | .fin _ m _ => m == 0
  | _ => false

/-- An infinity. -/
def Val.isInf : Val → Bool
  | .inf _ => true
  | _ => false

/-- minimumNumber and maximumNumber, -0 < +0, operands unchanged, no flag (R115). -/
def fminmax (f : Fmt) (isMax : Bool) (a b : Nat) : Nat :=
  let x := decodeF f a
  let y := decodeF f b
  if x.isNan && y.isNan then f.nanCode
  else if x.isNan then b
  else if y.isNan then a
  else
    let le := leV x y && !(leV y x && y.isNeg && !x.isNeg)
    if isMax then (if le then b else a) else (if le then a else b)

/-- A condition of FCMP, C[2:0] (R43, R112). -/
def fcond (c : Nat) (x y : Val) : Bool :=
  let un := x.isNan || y.isNan
  match c with
  | 0 => leV x y && leV y x
  | 1 => !(leV x y && leV y x)
  | 2 => !un && !leV y x
  | 3 => leV x y
  | 4 => !un && !leV x y
  | 5 => leV y x
  | 6 => !un
  | _ => un

/-- FRND: an integral value in the same format (R117). -/
def frnd (f : Fmt) (mode : RMode) (a : Nat) : Nat :=
  match decodeF f a with
  | .nan => f.nanCode
  | .inf _ => a
  | .fin neg m e =>
    if m = 0 then a
    else (narrowF f .rne false 0 (.fin neg (roundAt mode neg m e 0).1 0)).1

/-- The square root of n, rounded down, by bits i down to 0 above r. -/
def isqrtFrom (n : Nat) : Nat → Nat → Nat
  | 0, r => if (r + 1) * (r + 1) ≤ n then r + 1 else r
  | i + 1, r =>
    let c := r + 2 ^ (i + 1)
    isqrtFrom n i (if c * c ≤ n then c else r)

/-- floor(√n). -/
def isqrt (n : Nat) : Nat := isqrtFrom n (n.log2 / 2) 0

/-- A value known to lie in [n, n + 1) × 2^e, exactly n × 2^e when `exact`: a sticky bit stands for the rest. -/
def sticky (neg exact : Bool) (n : Nat) (e : Int) : Val := .fin neg (2 * n + (if exact then 0 else 1)) (e - 1)

/-- FRCP of a finite non-zero value (R116). -/
def rcpV (neg : Bool) (m : Nat) (e : Int) : Val :=
  let k := m.log2 + 64
  sticky neg (2 ^ k % m == 0) (2 ^ k / m) (-(k : Int) - e)

/-- √(m × 2^e). -/
def sqrtV (m : Nat) (e : Int) : Val :=
  let (m, e) := if e % 2 = 0 then (m, e) else (2 * m, e - 1)
  let n := m * 2 ^ 128
  let r := isqrt n
  sticky false (r * r == n) r (e / 2 - 64)

/-- 1 / √(m × 2^e). -/
def rsqV (m : Nat) (e : Int) : Val :=
  let (m, e) := if e % 2 = 0 then (m, e) else (2 * m, e - 1)
  let r := isqrt (2 ^ 160 / m)
  sticky false (r * r * m == 2 ^ 160) r (-80 - e / 2)

/-- Fraction bits of the fixed-point intervals below. -/
def fixBits : Nat := 320

/-- ⌊a / 2^k⌋ + 1 bounds a / 2^k from above. -/
def shrUp (a k : Nat) : Nat := a / 2 ^ k + 1

/-- Bounds of 2^f for f = num / 2^i + …: multiply in 2^(2^-j) for each set bit, j from 1, by repeated square roots. -/
def exp2Loop (num : Nat) : Nat → (Nat × Nat) → (Nat × Nat) → Nat × Nat
  | 0, _, acc => acc
  | i + 1, (clo, chi), (lo, hi) =>
    let rlo := isqrt (clo * 2 ^ fixBits)
    let rhi := isqrt (chi * 2 ^ fixBits) + 1
    let acc := if num / 2 ^ i % 2 = 1 then (lo * rlo / 2 ^ fixBits, shrUp (hi * rhi) fixBits) else (lo, hi)
    exp2Loop num i (rlo, rhi) acc

/-- 2^(num / 2^bits), 0 < num < 2^bits, in [n, n+1) / 2^B: n when the bounds agree (log 12). -/
def exp2Frac (num bits outBits : Nat) : Option Nat :=
  let (lo, hi) := exp2Loop num bits (2 ^ (fixBits + 1), 2 ^ (fixBits + 1)) (2 ^ fixBits, 2 ^ fixBits)
  let a := lo / 2 ^ (fixBits - outBits)
  if a = hi / 2 ^ (fixBits - outBits) then some a else none

/-- Bits of log2 y for y in [1, 2), by repeated squaring of bounds; none when they straddle 2 (log 12). -/
def log2Loop : Nat → Nat → Nat → Nat → Option Nat
  | 0, _, _, acc => some acc
  | i + 1, lo, hi, acc =>
    let lo2 := lo * lo / 2 ^ fixBits
    let hi2 := shrUp (hi * hi) fixBits
    let two := 2 ^ (fixBits + 1)
    if two ≤ lo2 then log2Loop i (lo2 / 2) (hi2 / 2 + 1) (2 * acc + 1)
    else if hi2 ≤ two then log2Loop i lo2 hi2 (2 * acc)
    else none

/-- ⌊π × 2^320⌋. -/
def piFix : Nat :=
  0x3243F6A8885A308D313198A2E03707344A4093822299F31D0082EFA98EC4E6C89452821E638D01377

/-- Terms of the sine series: t, -t³/6, … in units of 2^-320, t2 = t². -/
def sinLoop (t2 : Nat) : Nat → Nat → Nat → Int → Int
  | 0, _, _, acc => acc
  | i + 1, j, term, acc =>
    let next := term * t2 / 2 ^ fixBits / ((2 * j) * (2 * j + 1))
    sinLoop t2 i (j + 1) next (if j % 2 = 1 then acc - next else acc + next)

/-- sin(π r) for r = num / 2^bits in (0, 1/2), in [n, n+1) / 2^B (log 12): each of the 80 terms is off by at most 4 units
of 2^-320, so the sum is off by less than 1,024. -/
def sinpFrac (num bits outBits : Nat) : Option Nat :=
  let t := piFix * num / 2 ^ bits
  let t2 := t * t / 2 ^ fixBits
  let s := sinLoop t2 80 1 t t
  let lo := (s - 1024).toNat / 2 ^ (fixBits - outBits)
  let hi := (s + 1024).toNat / 2 ^ (fixBits - outBits)
  if lo = hi then some lo else none

/-- The functions of R116, F = 0 to 6. -/
inductive SpFn where
  | rcp | rsq | sqrt | ex2 | lg2 | sinp | cosp
  deriving DecidableEq, Repr

/-- A bounded value rounded toward zero into FP32, or the free value when the bounds do not separate (log 12). -/
def rtzOr (fn : Nat) (a : Nat) (v : Option Val) : Nat × Flags :=
  match v with
  | some v => narrowF .f32 .rtz false 0 v
  | none => ((Config.elementary fn (.ofNat 32 a)).toNat, flagNX)

/-- FEX2 (R116). -/
def ex2 (a : Nat) : Nat × Flags :=
  match decodeF .f32 a with
  | .nan => (Fmt.f32.nanCode, 0)
  | .inf neg => (if neg then 0 else 0x7F800000, 0)
  | .fin neg m e =>
    if m = 0 then (0x3F800000, 0)
    else
      let mag := (roundAt .rtz neg m e 0).1
      let integral := !(roundAt .rtz neg m e 0).2
      if !neg && 128 ≤ mag then (0x7F800000, flagOF ||| flagNX)
      else if neg && 150 ≤ mag then (0, flagUF ||| flagNX)
      else if integral then narrowF .f32 .rtz false 0 (.fin false 1 (if neg then -(mag : Int) else mag))
      else
        let bits := (-e).toNat
        let fr := m % 2 ^ bits
        let (n, fr) : Int × Nat := if neg then (-(mag : Int) - 1, 2 ^ bits - fr) else (mag, fr)
        rtzOr 3 a ((exp2Frac fr bits 64).map fun c => sticky false false c (n - 64))

/-- FLG2 (R116). -/
def lg2 (a : Nat) : Nat × Flags :=
  match decodeF .f32 a with
  | .nan => (Fmt.f32.nanCode, 0)
  | .inf neg => if neg then (Fmt.f32.nanCode, flagNV) else (0x7F800000, 0)
  | .fin neg m e =>
    if m = 0 then (0xFF800000, flagDZ)
    else if neg then (Fmt.f32.nanCode, flagNV)
    else
      let n : Int := (m.log2 : Int) + e
      if m = 2 ^ m.log2 then narrowF .f32 .rtz false 0 (if n = 0 then .fin false 0 0 else ofInteger n)
      else
        let y := m * 2 ^ (fixBits - m.log2)
        rtzOr 4 a ((log2Loop 96 y y 0).map fun fr =>
          let v : Int := n * 2 ^ 96 + fr
          if 0 ≤ v then sticky false false v.toNat (-96) else sticky true false (-v - 1).toNat (-96))

/-- The value of sin(π r), 0 ≤ r < 1 given as num / 2^bits, with a sign; exact at 0 and 1/2. -/
def sinpUnit (fn a : Nat) (neg : Bool) (num bits : Nat) : Nat × Flags :=
  if 2 * num = 2 ^ bits then (signed .f32 neg 0x3F800000, 0)
  else
    let num := if 2 ^ bits < 2 * num then 2 ^ bits - num else num
    rtzOr fn a ((sinpFrac num bits 240).map fun c => sticky neg false c (-240))

/-- FSINP (R116). -/
def sinp (a : Nat) : Nat × Flags :=
  match decodeF .f32 a with
  | .nan => (Fmt.f32.nanCode, 0)
  | .inf _ => (Fmt.f32.nanCode, flagNV)
  | .fin neg m e =>
    let n := (roundAt .rtz neg m e 0).1
    let bits := (-e).toNat
    let fr := m % 2 ^ bits
    if m = 0 || 0 ≤ e || fr = 0 then (signed .f32 neg 0, 0)
    else sinpUnit 5 a (neg != (n % 2 == 1)) fr bits

/-- FCOSP (R116). -/
def cosp (a : Nat) : Nat × Flags :=
  match decodeF .f32 a with
  | .nan => (Fmt.f32.nanCode, 0)
  | .inf _ => (Fmt.f32.nanCode, flagNV)
  | .fin neg m e =>
    let n := (roundAt .rtz neg m e 0).1
    let bits := (-e).toNat
    let fr := m % 2 ^ bits
    if m = 0 then (0x3F800000, 0)
    else if 0 ≤ e || fr = 0 then (signed .f32 (n % 2 == 1) 0x3F800000, 0)
    else if 2 * fr = 2 ^ bits then (0, 0)
    else
      -- cos(π r) = sin(π (1/2 - r)), negative past 1/2
      let past := 2 ^ bits < 2 * fr
      let d := if past then 2 * fr - 2 ^ bits else 2 ^ bits - 2 * fr
      sinpUnit 6 a (past != (n % 2 == 1)) d (bits + 1)

/-- FRCP, FRSQ, FSQRT with their special values, and the four functions rounded toward zero (R116). -/
def special (fn : SpFn) (a : Nat) : Nat × Flags :=
  match fn with
  | .rcp =>
    match decodeF .f32 a with
    | .nan => (Fmt.f32.nanCode, 0)
    | .inf neg => (signed .f32 neg 0, 0)
    | .fin neg m e =>
      if m = 0 then (signed .f32 neg 0x7F800000, flagDZ) else narrowF .f32 .rne false 0 (rcpV neg m e)
  | .rsq =>
    match decodeF .f32 a with
    | .nan => (Fmt.f32.nanCode, 0)
    | .inf neg => if neg then (Fmt.f32.nanCode, flagNV) else (0, 0)
    | .fin neg m e =>
      if m = 0 then (signed .f32 neg 0x7F800000, flagDZ)
      else if neg then (Fmt.f32.nanCode, flagNV)
      else narrowF .f32 .rne false 0 (rsqV m e)
  | .sqrt =>
    match decodeF .f32 a with
    | .nan => (Fmt.f32.nanCode, 0)
    | .inf neg => if neg then (Fmt.f32.nanCode, flagNV) else (0x7F800000, 0)
    | .fin neg m e =>
      if m = 0 then (a, 0)
      else if neg then (Fmt.f32.nanCode, flagNV)
      else narrowF .f32 .rne false 0 (sqrtV m e)
  | .ex2 => ex2 a
  | .lg2 => lg2 a
  | .sinp => sinp a
  | .cosp => cosp a

/-- One step of a rounding generator: the new state and the drawn word (R92). -/
def nextRandom (s : Word) : Word × Nat :=
  let s := s ^^^ (s <<< 13)
  let s := s ^^^ (s >>> 17)
  let s := s ^^^ (s <<< 5)
  (s, s.toNat / 65536)

/-- A generator's state from its seed; zero is replaced (R92). -/
def seedState (s : Word) : Word := if s = 0 then 0x6C078965 else s

/-! ### Format slots (R94, R95) -/

/-- CODE of a slot. -/
def slotCode (w : Word) : Nat := w.toNat % 16
/-- RND of a slot. -/
def slotRnd (w : Word) : Nat := w.toNat / 16 % 4
/-- SAT of a slot. -/
def slotSat (w : Word) : Bool := w.toNat / 64 % 2 == 1
/-- BIAS of a slot, as an integer. -/
def slotBias (w : Word) : Int := (BitVec.ofNat 8 (w.toNat / 256)).toInt
/-- A slot a launch record may hold (R94). -/
def slotOk (w : Word) : Bool :=
  w.toNat < 65536 && w.toNat / 128 % 2 == 0 && slotRnd w != 3 && slotCode w ≤ 10

/-- The formats a slot's CODE names. -/
inductive SlotFmt where
  | flt (f : Fmt)
  /-- MERE3, MERE5, MERE8 with magnitude bits k. -/
  | mere (k : Nat)
  | i8
  | n8
  deriving DecidableEq, Repr

/-- The format of a CODE (R94). -/
def slotFmt (w : Word) : SlotFmt :=
  match slotCode w with
  | 0 => .flt .f32 | 1 => .flt .f16 | 2 => .flt .bf16 | 3 => .flt .e4m3 | 4 => .flt .e5m2 | 5 => .flt .e2m1
  | 6 => .mere 1 | 7 => .mere 3 | 8 => .mere 6 | 9 => .i8 | _ => .n8

/-- A slot selects stochastic rounding (R94). -/
def slotStoch (w : Word) : Bool := slotRnd w == 2

/-- Element width of the packed formats (R121), or of E2M1 and the wider ones in memory (R138). -/
def slotWidth (w : Word) : Nat :=
  match slotFmt w with
  | .flt f => f.width
  | .mere k => k + 1
  | .i8 => 8
  | .n8 => 8

/-- The mode of a slot for a target (R89): per width, RNE forced, or stochastic with the drawn word. -/
def slotMode (w : Word) (rw : Nat) : RMode :=
  match slotRnd w with
  | 0 => if slotWidth w < 16 then .rna else .rne
  | 1 => .rne
  | _ => .sr rw

/-- Narrow into a slot that holds no MERE code, with an extra scale t (R95, R121). -/
def narrowSlot (w : Word) (rw : Nat) (t : Int) (x : Val) : Nat × Flags :=
  match slotFmt w with
  | .flt f => narrowF f (slotMode w rw) (slotSat w) t x
  | .i8 => let (v, g) := narrowI (-128) 127 (slotMode w rw) t x; ((BitVec.ofInt 8 v).toNat, g)
  | .n8 => let (v, g) := narrowI 0 255 (slotMode w rw) t x; (v.toNat, g)
  | .mere _ => (0, 0)

/-- The value of an element code of a slot that holds no MERE code. -/
def decodeSlot (w : Word) (c : Nat) : Val :=
  match slotFmt w with
  | .flt f => decodeF f c
  | .i8 => ofInteger (BitVec.ofNat 8 c).toInt
  | .n8 => ofInteger (c % 256)
  | .mere _ => .nan

/-- FP32 bits of a value times 2^t, by RNE (R95). -/
def toF32 (t : Int) (x : Val) : Nat × Flags := narrowF .f32 .rne false t x

/-! ### MERE blocks (R86 to R88) -/

/-- |x| < 2^e for a finite value, false for an infinity. -/
def magBelow (x : Val) (e : Int) : Bool :=
  match x with
  | .fin _ m ex => m == 0 || (m.log2 : Int) + ex < e
  | _ => false

/-- E of a block, steps 1 and 2 of R88. -/
def mereE (xs : List Val) : Nat :=
  if xs.any (·.isNan) then 255
  else if xs.any (·.isInf) then 254
  else
    let es := xs.filterMap fun x => match x with
      | .fin _ m e => if m = 0 then none else some ((m.log2 : Int) + e)
      | _ => none
    match es with
    | [] => 0
    | e :: rest => (min 254 (max 0 (rest.foldl max e + 127))).toNat

/-- The micro-exponent of a quad, step 3 of R88. -/
def mereMu (e : Nat) (quad : List Val) : Nat :=
  let ok (mu : Nat) := quad.all fun x => magBelow x ((e : Int) - 127 - mu)
  if ok 3 then 3 else if ok 2 then 2 else if ok 1 then 1 else 0

/-- One element's code and flags, step 4 of R88. -/
def mereElem (k e mu : Nat) (mode : RMode) (x : Val) : Nat × Flags :=
  let top := 2 ^ k - 1
  match x with
  | .nan => (0, 0)
  | .inf neg => ((if neg then 2 ^ k else 0) + top, flagSAT ||| flagNX)
  | .fin neg m ex =>
    let s := if neg then 2 ^ k else 0
    let (n, lost) := roundAt mode neg m ex ((e : Int) - 127 - mu - (k - 1 : Nat))
    if n > top then (s + top, flagSAT ||| flagNX) else (s + n, flagIf lost flagNX)

/-- A block record as its little-endian number, and the flags (R86, R88); `rws` are the drawn words by element. -/
def mereEncode (w : Word) (k : Nat) (rws : List Nat) (xs : List Val) : Nat × Flags :=
  let e := mereE xs
  if e = 255 then (255, 0)
  else
    let mus := (List.range 4).map fun j => mereMu e ((xs.drop (4 * j)).take 4)
    let elems := (List.range 16).map fun i =>
      mereElem k e (mus.getD (i / 4) 0) (slotMode w (rws.getD i 0)) (xs.getD i (.fin false 0 0))
    let muByte := (List.range 4).foldl (fun acc j => acc + mus.getD j 0 * 4 ^ j) 0
    let codes := (List.range 16).foldl (fun acc i => acc + (elems.getD i (0, 0)).1 * 2 ^ ((k + 1) * i)) 0
    (e + muByte * 256 + codes * 65536, elems.foldl (fun acc x => acc ||| x.2) 0)

/-- Element i of a block record (R87). -/
def mereDecode (k record i : Nat) : Val :=
  let e := record % 256
  if e = 255 then .nan
  else
    let mu := record / 256 / 4 ^ (i / 4) % 4
    let c := record / 65536 / 2 ^ ((k + 1) * i) % 2 ^ (k + 1)
    .fin (c / 2 ^ k == 1) (c % 2 ^ k) ((e : Int) - 127 - mu - (k - 1 : Nat))

/-- Bytes of a record: 6, 10 or 16 (R86). -/
def mereBytes (k : Nat) : Nat := 2 + 2 * (k + 1)

end Sys2Proof.Machine
end

