-- ==== Sys2Proof/Machine/Maps.lean ====
section
/-! DEFINITION. Sys2Proof/Machine/Maps.lean: keyed state, memory in its one canonical form, masks and byte order. Every
access to memory of the model goes through the functions here (R5, R348; log 1). -/
namespace Sys2Proof

/-- The value under a key. -/
def KeyMap.find {α : Type} : KeyMap α → Nat → Option α
  | [], _ => none
  | (j, x) :: r, k => if j = k then some x else KeyMap.find r k

/-- Store a value under a key, keeping the keys rising. -/
def KeyMap.put {α : Type} : KeyMap α → Nat → α → KeyMap α
  | [], k, x => [(k, x)]
  | (j, y) :: r, k, x =>
    if k < j then (k, x) :: (j, y) :: r
    else if k = j then (k, x) :: r
    else (j, y) :: KeyMap.put r k x

/-- Remove a key. -/
def KeyMap.del {α : Type} (m : KeyMap α) (k : Nat) : KeyMap α := m.filter fun c => c.1 != k

/-- Change the value under a key, if there is one. -/
def KeyMap.upd {α : Type} (m : KeyMap α) (k : Nat) (f : α → α) : KeyMap α :=
  match m.find k with
  | some x => m.put k (f x)
  | none => m

/-- The value under a key, or the one an absent key stands for. -/
def KeyMap.at {α : Type} (m : KeyMap α) (k : Nat) (dflt : α) : α := (m.find k).getD dflt

/-- Keep the entries that satisfy a test. -/
def KeyMap.keep {α : Type} (m : KeyMap α) (f : Nat → α → Bool) : KeyMap α := m.filter fun c => f c.1 c.2

/-- Change every value. -/
def KeyMap.mapAll {α : Type} (m : KeyMap α) (f : Nat → α → α) : KeyMap α := m.map fun c => (c.1, f c.1 c.2)

/-- Keys strictly rising. -/
def KeyMap.rising {α : Type} : KeyMap α → Bool
  | [] => true
  | [_] => true
  | (j, _) :: (k, y) :: r => j < k && KeyMap.rising ((k, y) :: r)

namespace Machine

/-- What an address that memory does not list reads as (log 1). -/
def unlistedByte : Byte := 0

/-- Read one byte. -/
def Memory.read (m : Memory) (a : Nat) : Byte := (KeyMap.find m a).getD unlistedByte

/-- Write one byte, keeping the canonical form. -/
def Memory.write (m : Memory) (a : Nat) (b : Byte) : Memory :=
  if b = unlistedByte then KeyMap.del m a else KeyMap.put m a b

/-- The canonical form: addresses strictly rising, no entry equal to what an unlisted address reads as. -/
def Memory.wf (m : Memory) : Bool := KeyMap.rising m && m.all fun c => c.2 != unlistedByte

/-- Read n bytes as a little-endian number (R5). -/
def Memory.readN (m : Memory) (a : Nat) : Nat → Nat
  | 0 => 0
  | n + 1 => (m.read a).toNat + 256 * Memory.readN m (a + 1) n

/-- Write the low n bytes of a number, little-endian (R5). -/
def Memory.writeN (m : Memory) (a : Nat) : Nat → Nat → Memory
  | 0, _ => m
  | n + 1, x => Memory.writeN (m.write a (.ofNat 8 x)) (a + 1) n (x / 256)

/-- Write a list of bytes. -/
def Memory.writeBytes (m : Memory) (a : Nat) : List Byte → Memory
  | [] => m
  | b :: r => Memory.writeBytes (m.write a b) (a + 1) r

/-- The n bytes at an address. -/
def Memory.bytes (m : Memory) (a n : Nat) : List Byte := (List.range n).map fun i => m.read (a + i)

/-- The little-endian number a list of bytes holds. -/
def leNat : List Byte → Nat
  | [] => 0
  | b :: r => b.toNat + 256 * leNat r

/-- The n bytes of a number, little-endian. -/
def leBytes : Nat → Nat → List Byte
  | 0, _ => []
  | n + 1, x => .ofNat 8 x :: leBytes n (x / 256)

/-- A field of n bytes at offset o of a record read as bytes. -/
def field (r : List Byte) (o n : Nat) : Nat := leNat ((r.drop o).take n)

/-- Bits h down to l of a number. -/
def bits (x h l : Nat) : Nat := x / 2 ^ l % 2 ^ (h + 1 - l)

/-- Bit i of a number. -/
def bit (x i : Nat) : Bool := x / 2 ^ i % 2 == 1

/-! ### Lane sets -/

/-- Lane L belongs to the set. -/
def inMask (m : Mask) (l : Nat) : Bool := m.getLsbD l

/-- The lanes of a set, in lane order. -/
def lanesIn (m : Mask) : List (Fin 128) := (List.finRange 128).filter fun l => m.getLsbD l.val

/-- The set that holds one lane. -/
def laneBit (l : Nat) : Mask := BitVec.ofNat 128 (2 ^ l)

/-- The set of the lanes that satisfy a test. -/
def maskOf (f : Nat → Bool) : Mask :=
  BitVec.ofNat 128 ((List.range 128).foldr (fun i acc => 2 * acc + (if f i then 1 else 0)) 0)

/-- The set of the lanes of a list. -/
def maskOfList (ls : List (Fin 128)) : Mask := ls.foldl (fun m l => m ||| laneBit l.val) 0

/-- Every lane of a group. -/
def allLanes : Mask := BitVec.allOnes 128

/-- The lowest lane of a set, 0 when it is empty. -/
def lowestLane (m : Mask) : Nat := ((List.range 128).find? fun i => m.getLsbD i).getD 0

/-- One value for each lane. -/
def lanesOf {α : Type} (f : Fin 128 → α) : Lanes α := Vector.ofFn f

/-- A row of the vector with the lanes of a set replaced. -/
def setLanes {α : Type} (old : Lanes α) (m : Mask) (f : Fin 128 → α) : Lanes α :=
  lanesOf fun l => if m.getLsbD l.val then f l else old[l]

/-- Element i of a list replaced. -/
def setAt {α : Type} (xs : List α) (i : Nat) (f : α → α) : List α := xs.modify i f

/-- Element i of a vector changed; nothing when there is no element i. -/
def vecMod {α : Type} {n : Nat} (v : Vector α n) (i : Nat) (f : α → α) : Vector α n :=
  if h : i < n then v.set i (f v[i]) else v

/-- Element i of a vector, or a default. -/
def vecGet {α : Type} {n : Nat} (v : Vector α n) (i : Nat) (dflt : α) : α := if h : i < n then v[i] else dflt

/-- Insert a number into a rising list, once. -/
def insertNat (k : Nat) : List Nat → List Nat
  | [] => [k]
  | j :: r => if k < j then k :: j :: r else if k = j then j :: r else j :: insertNat k r

end Machine
end Sys2Proof
end

