-- ==== Sys2Proof/Machine/Translate.lean ====
section
/-! DEFINITION. Sys2Proof/Machine/Translate.lean: where an address goes (R186 to R189), the range locks (R202 to R204), the two
stages of translation (R348 to R357) and the fabric windows (R360, R361). Nothing here changes the state. -/
namespace Sys2Proof.Machine

/-! ### Numbering (R9, R13, R336) -/

/-- Device clusters of a virtual function, rising: the bits of SLICES (R335). -/
def VF.clusters (v : VF) : List Nat := (List.range 32).filter fun c => v.slices.getLsbD c

/-- The partition rank of a device cluster (R336). -/
def VF.rank (v : VF) (cluster : Nat) : Nat := (v.clusters.filter fun c => c < cluster).length

/-- The partition number of a device core: SR.CORE (R336). -/
def VF.coreNumber (v : VF) (core : Nat) : Nat := 8 * v.rank (core / 8) + core % 8

/-- The device core of a partition core number, if the partition holds it. -/
def VF.deviceCore (v : VF) (n : Nat) : Option Nat := (v.clusters[n / 8]?).map fun c => 8 * c + n % 8

/-- Device memory slices of a virtual function, rising (R15). -/
def VF.slices2 (v : VF) : List Nat := v.clusters.flatMap fun c => [2 * c, 2 * c + 1]

/-- The virtual function and index a context key stands for. -/
def ctxVf (key : Nat) : Nat := key / 4096

/-- The virtual function, or one that owns nothing. -/
def State.vf (s : State) (n : Nat) : VF := s.vfs.at n {}

/-- The context under a key. -/
def State.ctx (s : State) (key : Nat) : Context := s.contexts.at key {}

/-- The crew under a key. -/
def State.crew (s : State) (key : Nat) : Crew := s.crews.at key {}

/-- The core of a device number. -/
def State.core (s : State) (n : Nat) : Core := s.cores.at n {}

/-- The cluster of a device number. -/
def State.cluster (s : State) (n : Nat) : Cluster := s.clusters.at n {}

/-- The slice that owns a physical address, for a virtual function's region or a firmware region (R15). -/
def State.owner (s : State) (pa : Nat) : Nat :=
  let region := pa / 2 ^ 30
  let list := match s.vfs.find? fun c => c.2.regions.contains region with
    | some (_, v) => v.slices2
    | none =>
      let die := if pa < 2 ^ 44 then pa / 2 ^ 36 / 3 else (pa / 2 ^ 44 - 1) / 3
      (List.range 16).map fun j => 16 * die + j
  let g := pa / 4096
  let h := (bits g 15 0) ^^^ (bits g 31 16) ^^^ (bits g 42 32)
  list.getD (h * list.length / 65536) 0

/-! ### Access kinds -/

/-- Kinds of access a lane, a copy or an engine makes. -/
inductive Acc where
  | load | store | atomic | tagLoad | tagStore | copyRead | copyWrite | fetch
  deriving DecidableEq, Repr

/-- The kind needs R (R354). -/
def Acc.reads : Acc → Bool
  | .load | .atomic | .copyRead => true
  | _ => false

/-- The kind needs W. -/
def Acc.writes : Acc → Bool
  | .store | .atomic | .copyWrite => true
  | _ => false

/-- The kind counts as a store for range conflicts (R204). -/
def Acc.locksAsStore : Acc → Bool
  | .store | .atomic | .tagStore => true
  | _ => false

/-- KIND of a page request the access makes (R358). -/
def Acc.requestKind : Acc → Nat
  | .load | .tagLoad => 0
  | .store | .tagStore => 1
  | .atomic => 2
  | .fetch => 3
  | .copyRead => 5
  | .copyWrite => 6

/-! ### Steering (R187 to R189, R360, R361) -/

/-- Where an address leads before translation. -/
inductive Where where
  | scratch (core off : Nat)
  | virt (va : Nat)
  | fabric (w off : Nat)
  deriving DecidableEq, Repr

/-- Product of SR.LDIM2 up to the level below declared level 3 + i (R71, R284). -/
def Params.below (p : Params) (i : Nat) : Nat := (p.levels.take i).foldl (fun acc l => acc * l.1) p.ext2

/-- The instance of declared level 3 + i that a crew belongs to (R286). -/
def Params.instanceOf (p : Params) (i crew : Nat) : Nat := crew / p.below i

/-- The innermost cluster-bound level (R188). -/
def Params.cluLevel (p : Params) : Option Nat := p.levels.findIdx? fun l => l.2.1 == 0

/-- The crew a peer access names (R188). -/
def State.peerCrew (s : State) (cr : Crew) (i : Nat) : Option Crew :=
  match cr.params.cluLevel with
  | none => none
  | some lev =>
    let core := 8 * (cr.core / 8) + i
    let fits := s.crews.filter fun c =>
      c.2.core == core && c.2.origin == cr.origin && c.2.ctx == cr.ctx &&
        c.2.params.instanceOf lev c.2.idx == cr.params.instanceOf lev cr.idx
    fits.foldl (fun best c => match best with
      | none => some c.2
      | some b => if c.2.idx < b.idx then some c.2 else some b) none

/-- An access to a fabric window is allowed (R361). -/
def windowAllows (w : Window) (asid : BitVec 16) (off n : Nat) (k : Acc) : Bool :=
  w.flags.getLsbD 0 && off + n ≤ w.limit && (w.asid == 0 || w.asid == asid) &&
    (!k.reads || w.flags.getLsbD 2) && (!k.writes || w.flags.getLsbD 3) &&
    (k != .atomic || w.flags.getLsbD 4)

/-- Steer the n bytes at an address for a lane of a group: none is ACCESS_VIOLATION (R187 to R189, R361). -/
def State.locate (s : State) (g : Group) (lane addr n : Nat) (k : Acc) : Option Where :=
  let cr := s.crew g.crew
  let lo := bits addr 54 0
  if bits addr 62 55 != 0 then none
  else if bit addr 63 then
    let w := bits addr 54 47
    let off := bits addr 46 0
    match (s.vf (ctxVf g.ctx)).windows.find w with
    | some win =>
      if k != .tagLoad && k != .tagStore && windowAllows win (s.ctx g.ctx).asid off n k then some (.fabric w off)
      else none
    | none => none
  else if 0x7FF00000000000 ≤ lo && lo < 0x80000000000000 then
    let off := lo - 0x7FF00000000000
    if off + n ≤ 0x100000 then
      if off + n ≤ cr.params.scratch then some (.scratch g.core (cr.sbase + off)) else none
    else if 0x800000 ≤ off && off + n ≤ 0x1000000 then
      let i := (off - 0x800000) / 2 ^ 20
      let o := off % 2 ^ 20
      let peer := if i == g.core % 8 then some cr else s.peerCrew cr i
      match peer with
      | some p => if o + n ≤ p.params.scratch then some (.scratch p.core (p.sbase + o)) else none
      | none => none
    else none
  else if 0x7FE00000000000 ≤ lo && lo < 0x7FF00000000000 then
    let o := lo - 0x7FE00000000000
    if k == .tagLoad || k == .tagStore then none
    else if o + n ≤ 16384 then
      let base := cr.params.stack.toNat + 2 ^ 21 * cr.params.groups * cr.idx
      let va := base + 16384 * (128 * g.idx + lane) + o
      if va < 2 ^ 55 then some (.virt va) else none
    else none
  else if k == .tagLoad || k == .tagStore then none
  else if lo + n ≤ 0x7FE00000000000 || 0x80000000000000 ≤ lo then some (.virt lo)
  else none

/-! ### Range locks (R202 to R204) -/

/-- Two inclusive ranges overlap. -/
def overlap (a b : Nat × Nat) : Bool := a.1 ≤ b.2 && b.1 ≤ a.2

/-- An optional range overlaps a range of a space. -/
def overlapO (a : Option (Space × Nat × Nat)) (sp : Space) (b : Nat × Nat) : Bool :=
  match a with
  | some (s, r) => s == sp && overlap r b
  | none => false

/-- The table, space and byte range that a lane access is checked against (R204). -/
def lockPlace (g : Group) (n : Nat) : Where → Nat × Space × (Nat × Nat)
  | .scratch core off => (core, .scratch core, (off, off + n - 1))
  | .virt va => (g.core, .local g.ctx, (va, va + n - 1))
  | .fabric w off => (g.core, .fabric g.ctx, (w * 2 ^ 47 + off, w * 2 ^ 47 + off + n - 1))

/-- A lane access conflicts with an entry of its table (R204). -/
def State.lockHit (s : State) (g : Group) (w : Where) (n : Nat) (k : Acc) : Bool :=
  let (core, sp, r) := lockPlace g n w
  (s.core core).locks.any fun l =>
    overlapO l.dst sp r || (k.locksAsStore && overlapO l.src sp r)

/-! ### Stage 2 (R350, R352, R353, R396) -/

/-- No memory answers at a physical address: its channel is absent, or its die has lost its management core (R19, R428). -/
def State.noMemory (s : State) (pa : Nat) : Bool :=
  s.absent.contains (Config.channelOf pa) || (pa < 2 ^ 44 && (vecGet s.dies (pa / 2 ^ 36 / 3) {}).failed)

/-- What keeps a line of memory from being read or merged: its channel is disabled, its check fails, or its cache row is
uncorrectable (R421 to R423, R428). -/
def State.lineFault (s : State) (pa : Nat) : Option Cause :=
  if s.noMemory pa then some .memoryUnavailable
  else if s.badLines.contains (pa / 64) then some .integrity
  else if s.deadLines.contains (pa / 64) then some .uncorrectable
  else none

/-- What one table entry says. -/
inductive Ent where
  | invalid
  | malformed
  | table (oa : Nat)
  | leaf (oa : Nat)
  | away
  deriving DecidableEq, Repr

/-- Output address bits 54:16 of an entry. -/
def entOA (e : Nat) : Nat := bits e 54 16 * 65536

/-- A physical range of 2^sh bytes lies in the regions listed. -/
def inRegions (rs : List Nat) (pa sh : Nat) : Bool :=
  if sh ≤ 30 then rs.contains (pa / 2 ^ 30)
  else (List.range (2 ^ (sh - 30))).all fun i => rs.contains (pa / 2 ^ 30 + i)

/-- Read a stage-2 entry at the level whose index starts at bit sh (R352, R353). -/
def s2Ent (s : State) (v : VF) (sh e : Nat) : Ent :=
  let ty := bits e 1 0
  let own := bits e 7 6
  let oa := entOA e
  let leaf := ty == 1 || ty == 3
  if ty == 0 then .invalid
  else if bits e 63 55 != 0 || bits e 15 8 != 0 then .malformed
  else if (sh == 16 && ty != 3) || (sh != 16 && ty == 3) then .malformed
  else if bit e 3 && !bit e 2 then .malformed
  else if own == 3 || (own != 0 && ty == 2) then .malformed
  else if own != 0 then (if v.mig.isSome then .away else .malformed)
  else if leaf then
    if oa % 2 ^ sh != 0 then .malformed
    else if inRegions v.regions oa sh then .leaf oa
    else if inRegions v.saveRegions oa sh && bits e 5 2 == 0 then .leaf oa
    else .malformed
  else if inRegions s.fwRegions oa 16 then .table oa
  else .malformed

/-- The end of a stage-2 walk: a physical address with its permissions, a miss with its REASON (R358; 3 stands for a page
that a migration holds, R408), or a failed line check on the way (R422). -/
inductive S2 where
  | ok (pa : Nat) (entry : Nat) (path : List WalkEntry)
  | miss (page reason : Nat)
  | lost (c : Cause) (pa : Nat)
  deriving DecidableEq, Repr

/-- A table entry as a walk reads it: from memory, or as a walker still holds it (R357, R363; log 9). -/
def State.walkWord (s : State) (w : WalkEntry) : WalkEntry :=
  let fresh := { w with value := Memory.readN s.mem w.addr 8 }
  match s.walks.find? fun o => { o with value := 0 } == { w with value := 0 } with
  | some o => if o.value != fresh.value && Config.keepCached s.tick then o else fresh
  | none => fresh

/-- Walk stage 2 of a virtual function from a table base over the levels still to come, `path` the entries read before
(R350). -/
def s2Walk (s : State) (n : Nat) (v : VF) (ipa : Nat) : List Nat → Nat → List WalkEntry → S2
  | [], _, _ => .miss (ipa / 65536) 2
  | sh :: rest, base, path =>
    let at8 := base + 8 * (ipa / 2 ^ sh % 8192)
    match s.lineFault at8 with
    | some c => .lost c at8
    | none =>
      let w := s.walkWord { stage := 2, vf := n, sh, part := ipa / 2 ^ sh, addr := at8, value := 0 }
      let e := w.value
      match s2Ent s v sh e with
      | .invalid => .miss (ipa / 65536) 0
      | .malformed => .miss (ipa / 65536) 2
      | .away => .miss (ipa / 65536) 3
      | .table oa => s2Walk s n v ipa rest oa (path ++ [w])
      | .leaf oa => .ok (oa + ipa % 2 ^ sh) e (path ++ [w])

/-- Stage 2 of an intermediate address of a virtual function. -/
def State.stage2 (s : State) (n ipa : Nat) : S2 := s2Walk s n (s.vf n) ipa [42, 29, 16] (s.vf n).s2root.toNat []

/-! ### Both stages (R351, R354, R356, R357) -/

/-- The end of a translation. -/
inductive Tr where
  | ok (e : TlbEntry)
  | cause (c : Cause)
  /-- A stage-2 miss; `table` when a page-table read met it; the offset in the page of the lowest faulting byte. -/
  | miss (h : Held) (table : Bool) (off : Nat)
  | lost (c : Cause) (pa : Nat)
  deriving DecidableEq, Repr

/-- The permissions of an entry allow a kind of access at a level. -/
def allows (ul x w r : Bool) (k : Acc) (lev : Priv) : Bool :=
  (lev != .l || ul) && (!k.reads || r) && (!k.writes || w) && (k != .fetch || x)

/-- Read a stage-1 entry (R351, R353). -/
def s1Ent (sh e : Nat) : Ent :=
  let ty := bits e 1 0
  if ty == 0 then .invalid
  else if bits e 63 55 != 0 || bits e 15 6 != 0 then .malformed
  else if (sh == 16 && ty != 3) || (sh != 16 && ty == 3) then .malformed
  else if bit e 3 && !bit e 2 then .malformed
  else if ty == 2 then .table (entOA e)
  else if entOA e % 2 ^ sh != 0 then .malformed
  else .leaf (entOA e)

/-- Walk stage 1 over the levels still to come, each table address through stage 2 (R356). -/
def s1Walk (s : State) (vfn : Nat) (asid : BitVec 16) (va : Nat) (k : Acc) (lev : Priv) :
    List Nat → Nat → List WalkEntry → Tr
  | [], _, _ => .cause .accessViolation
  | sh :: rest, base, path =>
    let ia := base + 8 * (va / 2 ^ sh % 8192)
    match s.stage2 vfn ia with
    | .miss p r => .miss ⟨vfn, p, r⟩ true (ia % 65536)
    | .lost c a => .lost c a
    | .ok pa e2 p2 =>
      if !bit e2 2 then .miss ⟨vfn, ia / 65536, 1⟩ true (ia % 65536)
      else match s.lineFault pa with
      | some c => .lost c pa
      | none =>
        let w := s.walkWord { stage := 1, vf := vfn, asid, sh, part := va / 2 ^ sh, addr := pa, value := 0 }
        let e := w.value
        let path := path ++ p2 ++ [w]
        match s1Ent sh e with
        | .invalid => .cause .pageNotPresent
        | .malformed => .cause .accessViolation
        | .away => .cause .accessViolation
        | .table oa => s1Walk s vfn asid va k lev rest oa path
        | .leaf oa =>
          if !allows (bit e 5) (bit e 4) (bit e 3) (bit e 2) k lev then .cause .accessViolation
          else
            let ipa := oa + va % 2 ^ sh
            match s.stage2 vfn ipa with
            | .miss p r => .miss ⟨vfn, p, r⟩ false (va % 65536)
            | .lost c a => .lost c a
            | .ok pa e2 p2 =>
              if !allows true (bit e2 4) (bit e2 3) (bit e2 2) k lev then .miss ⟨vfn, ipa / 65536, 1⟩ false (va % 65536)
              else .ok { vf := vfn, asid, vpage := va / 65536, ipage := ipa / 65536, ppage := pa / 65536
                         ul := bit e 5, x := bit e 4 && bit e2 4, w := bit e 3 && bit e2 3, r := bit e 2 && bit e2 2
                         sh, path := path ++ p2 }

/-- The cached translation of a virtual page. -/
def State.cached (s : State) (vfn : Nat) (asid : BitVec 16) (vpage : Nat) : Option TlbEntry :=
  s.tlb.find? fun e => e.vf == vfn && e.asid == asid && e.vpage == vpage

/-- Translate a virtual address of a context for an access at a level. A cached translation that allows the access and
differs from the walk is used or not, as the caches hold it still or not (R357, R363; log 9). -/
def State.translate (s : State) (ctxKey va : Nat) (k : Acc) (lev : Priv) : Tr :=
  let c := s.ctx ctxKey
  let vfn := ctxVf ctxKey
  let fresh := s1Walk s vfn c.asid va k lev [42, 29, 16] c.s1root.toNat []
  match s.cached vfn c.asid (va / 65536) with
  | none => fresh
  | some e =>
    if fresh == .ok e then fresh
    else if allows e.ul e.x e.w e.r k lev && Config.keepCached s.tick then .ok e
    else fresh

/-- Hold a translation in the TLBs, and its table entries in the walkers (R357). -/
def State.holdTlb (s : State) (e : TlbEntry) : State :=
  { s with tlb := e :: s.tlb.filter fun o => !(o.vf == e.vf && o.asid == e.asid && o.vpage == e.vpage)
           walks := e.path ++ s.walks.filter fun o => !(e.path.any fun w => { w with value := o.value } == o) }

/-- A table entry is the stage-2 entry of an intermediate page, of whatever size it maps. -/
def WalkEntry.onIpa (w : WalkEntry) (vf page : Nat) : Bool :=
  w.stage == 2 && w.vf == vf && w.part == page * 65536 / 2 ^ w.sh

/-- Drop the stage-2 entries of an intermediate page, and every translation built on them (R357, R364). -/
def State.dropIpa (s : State) (vf page : Nat) : State :=
  { s with tlb := s.tlb.filter fun e => !(e.vf == vf && (e.ipage == page || e.path.any fun w => w.onIpa vf page))
           walks := s.walks.filter fun w => !w.onIpa vf page }

/-- Drop every cached entry of a virtual function. -/
def State.dropVfTlb (s : State) (vf : Nat) : State :=
  { s with tlb := s.tlb.filter fun e => e.vf != vf, walks := s.walks.filter fun w => w.vf != vf }

/-- The physical address of a virtual address under a translation. -/
def TlbEntry.pa (e : TlbEntry) (va : Nat) : Nat := e.ppage * 65536 + va % 65536

/-! ### Links on the way (R348, R381) -/

/-- The scope that orders a transaction: the one its window names, any for an access to CXL memory (R169, R360). -/
def State.txScope (s : State) (t : Tx) : Nat :=
  if t.cxl then 0 else if ((s.vf t.vf).windows.at t.window {}).flags.getLsbD 5 then 6 else 5

/-- The CXL port a physical address lies behind; 12 to 19 are the Ultra Ethernet ports. -/
def cxlPort (pa : Nat) : Option Nat := if pa < 2 ^ 44 then none else some (pa / 2 ^ 44 - 1)

/-- A link, or a good one (R427). -/
def State.link (s : State) (n : Nat) : Link := s.links.at n {}

/-- The HBM4 channel of an address retrains: its slices hold the requests (R428). -/
def State.retrains (s : State) (pa : Nat) : Bool := cxlPort pa == none && (s.link (Config.channelOf pa)).retraining

/-- What an access to memory goes out through beyond its slice: a CXL port, or a channel that retrains, channel k as port
64 + k (R381, R428). -/
def State.farPort (s : State) (pa : Nat) : Option Nat :=
  match cxlPort pa with
  | some p => some p
  | none => if s.retrains pa then some (64 + Config.channelOf pa) else none

/-- The Ultra Ethernet port that carries a window's transactions (log 15). -/
def windowPort (w : Window) : Nat := 12 + w.endpt % 8

/-- A port is up. -/
def State.portUp (s : State) (p : Nat) : Bool := (s.ports.at p {}).up

/-- A port is up, or a channel has done its retraining (R381, R428). -/
def State.portOpen (s : State) (p : Nat) : Bool := if p < 64 then s.portUp p else !(s.link (p - 64)).retraining

end Sys2Proof.Machine
end

