-- ==== Sys2Proof/Machine/Rings.lean ====
section
/-! DEFINITION. Sys2Proof/Machine/Rings.lean: what the device writes for others to read: page requests (R358), the contexts'
event rings (R377) and the hypervisor's event queue (R426). One convention holds for all of them (R358). -/
namespace Sys2Proof.Machine

/-- The code of a cause (R368). -/
def Cause.code : Cause → Nat
  | .illegalOpcode => 0x01 | .uniformViolation => 0x03 | .emptyRead => 0x04 | .regRange => 0x05
  | .roleViolation => 0x06 | .misaligned => 0x07 | .rangeConflict => 0x08 | .scopeDenied => 0x09
  | .accessViolation => 0x0A | .pageNotPresent => 0x0B | .barrierTimeout => 0x0C | .tagTimeout => 0x0D
  | .counterUnderflow => 0x0E | .memoryUnavailable => 0x0F | .uncorrectable => 0x10 | .integrity => 0x11
  | .software => 0x13 | .saveFault => 0x14

/-- Change a virtual function. -/
def State.updVf (s : State) (n : Nat) (f : VF → VF) : State := { s with vfs := s.vfs.upd n f }

/-- Change a context. -/
def State.updCtx (s : State) (k : Nat) (f : Context → Context) : State := { s with contexts := s.contexts.upd k f }

/-- Change a core; a core nothing has touched stands at its reset value. -/
def State.updCore (s : State) (n : Nat) (f : Core → Core) : State := { s with cores := s.cores.put n (f (s.core n)) }

/-- Change a cluster. -/
def State.updCluster (s : State) (n : Nat) (f : Cluster → Cluster) : State :=
  { s with clusters := s.clusters.put n (f (s.cluster n)) }

/-- Change a crew. -/
def State.updCrew (s : State) (n : Nat) (f : Crew → Crew) : State := { s with crews := s.crews.upd n f }

/-- Send a message outside. -/
def State.send (s : State) (m : Msg) : State := { s with sent := m :: s.sent }

/-- Answer a host command. -/
def State.answer (s : State) (ok : Bool) (v : DWord := 0) : State := s.send (.answer ok v)

/-- Set an event bit of the management cores that run (R386, R430). -/
def State.mgmtEvent (s : State) (die bitNo : Nat) : State :=
  { s with dies := vecMod s.dies die fun d => { d with mevent := d.mevent ||| BitVec.ofNat 32 (2 ^ bitNo) } }

/-! ### The hypervisor's event queue (R426) -/

/-- The 64 bytes of a record at its place. -/
def ErrRec.bytes (r : ErrRec) (drops : Nat) : List Byte :=
  leBytes 8 r.addr.toNat ++ leBytes 8 r.info.toNat ++ leBytes 1 r.kind ++ leBytes 1 r.vf ++ leBytes 2 r.unit ++
    leBytes 2 r.ctx ++ leBytes 2 drops ++ leBytes 8 r.time ++ leBytes 28 0 ++ leBytes 4 0x80000000

/-- Write held records while the next position is free. -/
def State.flushErr : Nat → State → State
  | 0, s => s
  | n + 1, s =>
    match s.evq.held with
    | [] => s
    | r :: rest =>
      let a := s.evq.base.toNat + 64 * s.evq.pos
      if s.evq.len == 0 || bit (Memory.readN s.mem (a + 0x3C) 4) 31 then s
      else State.flushErr n
        { s with mem := s.mem.writeBytes a (r.bytes s.evq.drops)
                 evq := { s.evq with pos := (s.evq.pos + 1) % s.evq.len, held := rest, drops := 0 } }

/-- Post a record; beyond 1,024 held ones the newest is dropped and counted. -/
def State.postErr (s : State) (r : ErrRec) : State :=
  let r := { r with time := s.refTime }
  let s := State.flushErr 1025 { s with evq := { s.evq with held := s.evq.held ++ [r] } }
  if s.evq.held.length ≤ 1024 then s
  else { s with evq := { s.evq with held := s.evq.held.take 1024, drops := s.evq.drops + 1 } }

/-- The next position of the hypervisor's queue is free for a held record. -/
def State.errRingReady (s : State) : Bool :=
  !s.evq.held.isEmpty && s.evq.len != 0 && !bit (Memory.readN s.mem (s.evq.base.toNat + 64 * s.evq.pos + 0x3C) 4) 31

/-- The record of a line that failed; a dirty cache row found uncorrectable leaves the line with a failing check (R422, R423). -/
def State.lineRecord (s : State) (pa vf ctx : Nat) : State :=
  if s.noMemory pa then s
  else if s.badLines.contains (pa / 64) then
    s.postErr { addr := .ofNat 64 (pa / 64 * 64), kind := 0x07, vf, unit := s.owner pa, ctx }
  else if s.deadLines.contains (pa / 64) then
    { s with deadLines := s.deadLines.filter (· != pa / 64), badLines := insertNat (pa / 64) s.badLines }.postErr
      { addr := .ofNat 64 (pa / 64 * 64), info := 1, kind := 0x04, vf, unit := s.owner pa, ctx }
  else s

/-! ### Page requests (R358) -/

/-- Raise a page request, or join the outstanding one for the same page and REASON. A page that a migration holds is asked of
the source instead (R408). -/
def State.request (s : State) (h : Held) (r : PageReq) : State :=
  if h.reason == 3 then
    if (s.vf h.vf).mig.any fun m => !m.source && !m.asked.contains h.page then
      (s.updVf h.vf fun v => { v with mig := v.mig.map fun m => { m with asked := m.asked ++ [h.page] } }).send
        (.pageAsk h.vf (h.page * 65536))
    else s
  else
    s.updVf h.vf fun v =>
      if v.requests.any fun q => q.ipa / 65536 == h.page && q.reason == h.reason then v
      else { v with requests := v.requests ++ [{ r with reason := h.reason }] }

/-- The request of an access of a group, a copy or an engine (R358). -/
def State.requestFor (s : State) (h : Held) (ctxKey core va off : Nat) (table : Bool) (kind : Nat) : State :=
  s.request h { ipa := h.page * 65536 + off, va := if table then 0 else .ofNat 64 va
                asid := (s.ctx ctxKey).asid.toNat, ctx := ctxKey % 4096
                kind := if table then 4 else kind, core }

/-! ### Accesses the device makes itself, in a context (R354) -/

/-- The end of such an access. -/
inductive Got (α : Type) where
  | ok (x : α) (s : State)
  | cause (c : Cause) (va : Nat) (s : State)
  | held (h : Held) (s : State)

/-- Translate one byte address for an access of KIND 7, raising the page request of a miss; memory behind a CXL link that is
down is unavailable (R318). -/
def State.reach (s : State) (ctxKey va : Nat) (k : Acc) (lev : Priv) : Got Nat :=
  if bits va 63 55 != 0 || (0x7FE00000000000 ≤ va) then .cause .accessViolation va s
  else
    match s.translate ctxKey va k lev with
    | .cause c => .cause c va s
    | .lost c pa => .cause c va (s.lineRecord pa (ctxVf ctxKey) (ctxKey % 4096))
    | .miss h table off => .held h (s.requestFor h ctxKey 0xFFFF va off table 7)
    | .ok e =>
      let pa := e.pa va
      if (cxlPort pa).any fun p => !s.portUp p then .cause .memoryUnavailable va s
      else match s.lineFault pa with
      | some c => .cause c va (s.lineRecord pa (ctxVf ctxKey) (ctxKey % 4096))
      | none => .ok pa (s.holdTlb e)

/-- Read n bytes at a context address that does not cross a page, with the permissions of a kind of access. -/
def State.fetchBytes (s : State) (ctxKey va n : Nat) (lev : Priv) (k : Acc := .load) : Got (List Byte) :=
  match s.reach ctxKey va k lev with
  | .ok pa s =>
    match (List.range (n / 64)).find? fun i => (s.lineFault (pa + 64 * i)).isSome with
    | some i => .cause ((s.lineFault (pa + 64 * i)).getD .integrity) (va + 64 * i)
        (s.lineRecord (pa + 64 * i) (ctxVf ctxKey) (ctxKey % 4096))
    | none => .ok (s.mem.bytes pa n) s
  | .cause c a s => .cause c a s
  | .held h s => .held h s

/-- Write bytes at a context address that does not cross a page. -/
def State.storeBytes (s : State) (ctxKey va : Nat) (bs : List Byte) (lev : Priv) : Got Unit :=
  match s.reach ctxKey va .store lev with
  | .ok pa s => .ok () { s with mem := s.mem.writeBytes pa bs }
  | .cause c a s => .cause c a s
  | .held h s => .held h s

/-! ### A context's event ring (R377) -/

/-- The 32 bytes of an entry. -/
def Event.bytes (e : Event) (drops : Nat) : List Byte :=
  leBytes 8 e.addr.toNat ++ leBytes 8 e.info.toNat ++ leBytes 1 e.kind ++ leBytes 1 0 ++ leBytes 2 e.core ++
    leBytes 2 drops ++ leBytes 6 0 ++ leBytes 4 0x80000000

/-- Write held events while the next position is free and its page translates for writing. -/
def State.flushEvents : Nat → Nat → State → State
  | 0, _, s => s
  | n + 1, key, s =>
    let c := s.ctx key
    match c.events.held with
    | [] => s
    | e :: rest =>
      let va := c.events.base.toNat + 32 * c.events.pos
      let s := s.updCtx key fun c => { c with events := { c.events with tried := s.cycle } }
      match s.reach key va .store .s with
      | .held _ s => s
      | .cause _ _ s => s.postErr { addr := .ofNat 64 va, kind := 0x12, vf := ctxVf key, ctx := key % 4096 }
      | .ok pa s =>
        if bit (Memory.readN s.mem (pa + 0x1C) 4) 31 then s
        else
          let s := { s with mem := s.mem.writeBytes pa (e.bytes c.events.drops) }
          State.flushEvents n key (s.updCtx key fun c =>
            { c with events := { c.events with pos := (c.events.pos + 1) % c.events.len, held := rest, drops := 0 } })

/-- Post an event to a context's ring; beyond 64 held ones the newest is dropped and counted. -/
def State.postEvent (s : State) (key : Nat) (e : Event) : State :=
  let s := State.flushEvents 65 key (s.updCtx key fun c => { c with events := { c.events with held := c.events.held ++ [e] } })
  if (s.ctx key).events.held.length ≤ 64 then s
  else s.updCtx key fun c =>
    { c with events := { c.events with held := c.events.held.take 64, drops := c.events.drops + 1 } }

/-- The state in which a context that has died still stands, for its held events. -/
def State.asLive (s : State) (x : Nat × Context) : State := { s with contexts := s.contexts.put x.1 x.2 }

/-- Try the ring of a context that has died again. -/
def State.flushDeadOne (s : State) (x : Nat × Context) : State :=
  let was := s.contexts.find x.1
  let t := State.flushEvents 65 x.1 (s.asLive x)
  let c := t.ctx x.1
  let left := if c.events.held.isEmpty then [] else [(x.1, c)]
  { t with deadRings := t.deadRings ++ left
           contexts := match was with
             | some w => t.contexts.put x.1 w
             | none => t.contexts.del x.1 }

/-- Try the rings of dead contexts that a test picks. -/
def State.flushDead (s : State) (sel : Nat → Bool) : State :=
  s.deadRings.foldl (fun s x => if sel x.1 then s.flushDeadOne x else { s with deadRings := s.deadRings ++ [x] })
    { s with deadRings := [] }

/-- A context that holds events can try its ring again with effect: the position is free, or its page failed 65,536 cycles
ago. -/
def State.eventRingReady (s : State) (key : Nat) (c : Context) : Bool :=
  !c.events.held.isEmpty &&
    match s.reach key (c.events.base.toNat + 32 * c.events.pos) .store .s with
    | .held _ _ => false
    | .cause _ _ _ => c.events.tried + 65536 ≤ s.cycle
    | .ok pa _ => !bit (Memory.readN s.mem (pa + 0x1C) 4) 31

end Sys2Proof.Machine
end

