-- ==== Sys2Proof/Machine/Ops.lean ====
section
/-! DEFINITION. Sys2Proof/Machine/Ops.lean: the operations every meaning is made of: register access, the checks of R57 in
their order, issue, merging (R267), taking a trap (R370), returning from one (R374) and the death of a context (R376). -/
namespace Sys2Proof.Machine

/-- One outcome of the machine. -/
abbrev Result := Host.Outcome State Fault Refusal

/-! ### Registers of a group (R59, R61) -/

/-- V[r] of a lane. -/
def Group.vAt (g : Group) (r : Nat) (l : Fin 128) : Word := (vecGet g.v r (Vector.replicate 128 0))[l]

/-- The pair V[r], V[r+1] of a lane, low word first. -/
def Group.vPair (g : Group) (r : Nat) (l : Fin 128) : DWord := g.vAt (r + 1) l ++ g.vAt r l

/-- G[r]. -/
def Group.gAt (g : Group) (r : Nat) : DWord := vecGet g.g r 0

/-- P[r] as a lane set; P0 reads true. -/
def Group.pAt (g : Group) (r : Nat) : Mask := if r = 0 then allLanes else vecGet g.p r 0

/-- Q[r]; Q0 reads true. -/
def Group.qAt (g : Group) (r : Nat) : Bool := r = 0 || g.q.getLsbD r

/-- Write V[r] in the lanes of a set. -/
def Group.setV (g : Group) (r : Nat) (m : Mask) (f : Fin 128 → Word) : Group :=
  { g with v := vecMod g.v r fun old => setLanes old m f }

/-- Write G[r]. -/
def Group.setG (g : Group) (r : Nat) (x : DWord) : Group := { g with g := vecMod g.g r fun _ => x }

/-- Write P[r] in the lanes of a set; a write to P0 is discarded. -/
def Group.setP (g : Group) (r : Nat) (m : Mask) (f : Fin 128 → Bool) : Group :=
  if r = 0 then g
  else { g with p := vecMod g.p r fun old => maskOf fun i =>
    if h : i < 128 then (if m.getLsbD i then f ⟨i, h⟩ else old.getLsbD i) else false }

/-- Write Q[r]; a write to Q0 is discarded. -/
def Group.setQ (g : Group) (r : Nat) (b : Bool) : Group :=
  if r = 0 then g
  else { g with q := if b then g.q ||| BitVec.ofNat 16 (2 ^ r) else g.q &&& ~~~ BitVec.ofNat 16 (2 ^ r) }

/-! ### Empty marks (R62) -/

/-- Mark V[r] empty in the lanes of a set. -/
def Group.emptyV (g : Group) (r : Nat) (m : Mask) : Group := { g with ve := vecMod g.ve r fun e => e ||| m }
/-- Mark V[r] full in the lanes of a set. -/
def Group.fullV (g : Group) (r : Nat) (m : Mask) : Group := { g with ve := vecMod g.ve r fun e => e &&& ~~~ m }
/-- Mark G[r] empty. -/
def Group.emptyG (g : Group) (r : Nat) : Group := { g with ge := g.ge ||| BitVec.ofNat 64 (2 ^ r) }
/-- Mark G[r] full. -/
def Group.fullG (g : Group) (r : Nat) : Group := { g with ge := g.ge &&& ~~~ BitVec.ofNat 64 (2 ^ r) }
/-- Mark Q[r] empty; Q0 is never empty. -/
def Group.emptyQ (g : Group) (r : Nat) : Group :=
  if r = 0 then g else { g with qe := g.qe ||| BitVec.ofNat 16 (2 ^ r) }
/-- Mark Q[r] full. -/
def Group.fullQ (g : Group) (r : Nat) : Group := { g with qe := g.qe &&& ~~~ BitVec.ofNat 16 (2 ^ r) }
/-- Mark P[r] empty in the lanes of a set; P0 is never empty. -/
def Group.emptyP (g : Group) (r : Nat) (m : Mask) : Group :=
  if r = 0 then g else { g with pe := vecMod g.pe r fun e => e ||| m }
/-- Mark P[r] full in the lanes of a set. -/
def Group.fullP (g : Group) (r : Nat) (m : Mask) : Group := { g with pe := vecMod g.pe r fun e => e &&& ~~~ m }

/-- V[r] is empty in some lane of a set. -/
def Group.vEmpty (g : Group) (r : Nat) (m : Mask) : Bool := (vecGet g.ve r 0) &&& m != 0
/-- G[r] is empty. -/
def Group.gEmpty (g : Group) (r : Nat) : Bool := g.ge.getLsbD r
/-- P[r] is empty in some lane of a set. -/
def Group.pEmpty (g : Group) (r : Nat) (m : Mask) : Bool := (vecGet g.pe r 0) &&& m != 0
/-- Q[r] is empty. -/
def Group.qEmpty (g : Group) (r : Nat) : Bool := g.qe.getLsbD r

/-! ### The acting entry -/

/-- Change a group. -/
def State.updGroup (s : State) (gid : Nat) (f : Group → Group) : State := { s with groups := s.groups.upd gid f }

/-- Replace a group. -/
def State.putGroup (s : State) (gid : Nat) (g : Group) : State := { s with groups := s.groups.put gid g }

/-- The group and entry that act, if they exist. -/
def State.acting (s : State) : Option (Nat × Group × Nat × Entry) :=
  match s.cur with
  | .group gid ei =>
    match s.groups.find gid with
    | some g => match g.entries[ei]? with
      | some e => some (gid, g, ei, e)
      | none => none
    | none => none
  | _ => none

/-- Change one entry of a group. -/
def State.updEntry (s : State) (gid ei : Nat) (f : Entry → Entry) : State :=
  s.updGroup gid fun g => { g with entries := setAt g.entries ei f }

/-- The entry cannot issue now (R264). -/
def State.block (s : State) (gid ei : Nat) : State := s.updEntry gid ei fun e => { e with blocked := true }

/-- The entry waits at issue for entries of a table, from the step at which it first did (R203, R378). -/
def State.queueAt (s : State) (gid ei : Nat) (asks : List (Nat × Nat)) : State :=
  s.updEntry gid ei fun e =>
    { e with blocked := true, queued := some { since := (e.queued.map fun q => q.since).getD s.tick, asks } }

/-- The place of an entry's instruction among those that wait at issue: none waits yet. -/
def State.turnOf (s : State) (e : Entry) : Nat := (e.queued.map fun q => q.since).getD s.tick

/-! ### Order and merging of the frontier (R265, R267) -/

/-- a ranks ahead of b by R265 step 2. -/
def Entry.ahead (a b : Entry) : Bool := b.pri.toNat < a.pri.toNat || (a.pri == b.pri && a.pc.toNat < b.pc.toNat)

/-- Insert by rank. -/
def insertRank (e : Entry) : List Entry → List Entry
  | [] => [e]
  | f :: r => if e.ahead f then e :: f :: r else f :: insertRank e r

/-- Entries in the order of R265 step 2. -/
def byRank (es : List Entry) : List Entry := es.foldl (fun acc e => insertRank e acc) []

/-- Partway through a REP (R52, R263). -/
def Entry.midRep (e : Entry) : Bool := (e.pre.rep.isSome && e.pre.idx != 0) || e.resume != 0

/-- The entry is never spilled (R268). -/
def Entry.keeps (e : Entry) : Bool := e.midRep || e.due

/-- a keeps a live place before b (R268). -/
def Entry.livelier (a b : Entry) : Bool := (a.keeps && !b.keeps) || (a.keeps == b.keeps && a.ahead b)

/-- Entry i of a frontier is live: fewer than 16 others keep their places before it (R268; log 21). -/
def isLive (es : List Entry) (i : Nat) (e : Entry) : Bool :=
  es.length ≤ 16 ||
    (es.zipIdx.filter fun x => x.1.livelier e || (!e.livelier x.1 && x.2 < i)).length < 16

/-- The entry may merge (R267): not partway through a REP, not waiting inside an instruction. -/
def Entry.mergeable (e : Entry) : Bool :=
  e.wait.isNone && e.resume == 0 && (e.pre.rep.isNone || e.pre.idx == 0)

/-- The merged entry (R267). -/
def Entry.merge (a b : Entry) : Entry :=
  { a with mask := a.mask ||| b.mask, pri := if a.pri.toNat < b.pri.toNat then b.pri else a.pri
           starve := max a.starve b.starve, due := a.due || b.due
           dueAt := if a.due && b.due then min a.dueAt b.dueAt else if b.due then b.dueAt else a.dueAt
           yield := false, pre := {}, blocked := false, queued := none }

/-- Add an entry to a frontier, merging it with one at its PC. -/
def addEntry (e : Entry) : List Entry → List Entry
  | [] => [e]
  | f :: r => if f.pc == e.pc && f.mergeable && e.mergeable then f.merge e :: r else f :: addEntry e r

/-- Merge the entries of a list. -/
def mergeList (es : List Entry) : List Entry := es.foldl (fun acc e => addEntry e acc) []

/-- Merge the live entries; each merge brings a spilled entry back, which may merge in turn (R267, R268). -/
def mergeSpilled : Nat → List Entry → List Entry
  | 0, es => es
  | n + 1, es =>
    let (live, spilled) := es.zipIdx.partition fun x => isLive es x.2 x.1
    let merged := mergeList (live.map fun x => x.1)
    if merged.length = live.length then es else mergeSpilled n (merged ++ spilled.map fun x => x.1)

/-- Apply R267 to a frontier. -/
def mergeAll (es : List Entry) : List Entry := if es.length ≤ 16 then mergeList es else mergeSpilled es.length es

/-- The entry after its instruction: the next repetition, or the next word with no latched state (R51, R53). -/
def Entry.advance (e : Entry) : Entry :=
  match e.pre.rep with
  | some (cnt, _, _, _) =>
    if e.pre.idx < cnt then
      { e with pre := { e.pre with idx := e.pre.idx + 1 }, wait := none, blocked := false, queued := none, resume := 0 }
    else { e with pc := e.pc + 4 * (BitVec.ofNat 64 e.pre.words + 1), pre := {}, wait := none, blocked := false
                  queued := none, resume := 0 }
  | none =>
    { e with pc := e.pc + 4 * (BitVec.ofNat 64 e.pre.words + 1), pre := {}, wait := none, blocked := false
             queued := none, resume := 0 }

/-- The entry's instruction is done: it moves on, and the frontier merges. -/
def State.finish (s : State) (gid ei : Nat) : State :=
  s.updGroup gid fun g => { g with entries := mergeAll (setAt g.entries ei Entry.advance) }

/-- The address of the instruction word itself, after its prefixes (R32). -/
def Entry.wordPc (e : Entry) : DWord := e.pc + 4 * BitVec.ofNat 64 e.pre.words

/-! ### Death of a context (R376, R377) -/

/-- The context's groups issue: it is not being saved, saved or faulted, and no save of its virtual function stands at a fault
(R390, R401). -/
def State.ctxLive (s : State) (key : Nat) : Bool := (s.ctx key).state == .live && (s.vf (ctxVf key)).saveFault.isNone

/-- What the context has under way still moves: it runs, or its save waits for it (R392). -/
def State.ctxMoves (s : State) (key : Nat) : Bool :=
  s.ctxLive key || ((s.ctx key).state == .saving && (s.vf (ctxVf key)).saveFault.isNone)

/-- The next generation of a handle (R213, R231, R292). -/
def nextGen (g : Nat) : Nat := if g = 65535 then 1 else g + 1

/-- A group of the context owns the lock. -/
def LockOwner.ofCtx (s : State) (key : Nat) : LockOwner → Bool
  | .copy gid _ => (s.groups.at gid {}).ctx == key
  | .eng gid _ => (s.groups.at gid {}).ctx == key
  | .task core r => (s.core core).copyTasks.any fun t => t.ctx == key && t.id == r

/-- Power leave a group's engine operations hold (R148). -/
def Group.leave (g : Group) : Nat := g.engq.foldl (fun n o => n + o.granted.getD 0) 0

/-- A barrier returns to its pool (R216). -/
def Barrier.drop (b : Barrier) : Barrier := { b with live := false, gen := nextGen b.gen, refs := 0 }

/-- Everything of a context that stands in a core goes (R376). -/
def Core.dropCtx (s : State) (key : Nat) (c : Core) : Core :=
  { c with
    barriers := c.barriers.mapAll fun _ b => if b.live && b.ctx == key then b.drop else b
    locks := c.locks.filter fun l => !l.owner.ofCtx s key
    copies := c.copies.filter fun k => (s.groups.at k.2.gid {}).ctx != key
    tasks := c.tasks.filter fun t => t.ctx != key
    copyTasks := c.copyTasks.filter fun t => t.ctx != key }

/-- And in a cluster: leave asked or held, and streams. -/
def Cluster.dropCtx (s : State) (key n : Nat) (c : Cluster) : Cluster :=
  let held := (s.groups.filter fun g => g.2.ctx == key && g.2.core / 8 == n).foldl (fun k g => k + g.2.leave) 0
  let tasks := (s.cores.filter fun k => k.1 / 8 == n).foldl (fun k co =>
    k + (co.2.copyTasks.filter fun t => t.ctx == key).foldl (fun m t => m + t.granted.getD 0) 0) 0
  { c with out := c.out - held - tasks
           fifo := c.fifo.filter fun o => !o.ofCtx s key
           inbox := c.inbox.map fun x => if x.2.ctx == key then (x.1, { x.2 with dead := true }) else x }

/-- A context ends: its groups stop, what it owns is freed, and nothing else changes (R376). Copies are cut with none of
their writes made. -/
def State.dropContext (s : State) (key : Nat) : State :=
  let vfn := ctxVf key
  let asid := (s.ctx key).asid
  { s with
    cores := s.cores.mapAll fun _ c => c.dropCtx s key
    clusters := s.clusters.mapAll fun n c => c.dropCtx s key n
    groups := (s.groups.keep fun _ g => g.ctx != key).mapAll fun _ g =>
      { g with engq := g.engq.map fun o => if o.far.contains key then { o with farDead := true } else o }
    crews := s.crews.keep fun _ c => c.ctx != key
    launches := s.launches.keep fun _ l => l.ctx != key
    queues := s.queues.mapAll fun _ q =>
      if q.live && q.ctx == key then { q with live := false, gen := nextGen q.gen, elems := [], waiters := [] } else q
    streams := s.streams.mapAll fun _ t =>
      if t.live && t.ctx == key then { t with live := false, gen := nextGen t.gen, flight := [], held := [], closing := false } else t
    shoreQ := s.shoreQ.filter fun r => (s.streams.at r.stream {}).ctx != key
    shoreHeld := s.shoreHeld.filter fun r => (s.streams.at r.stream {}).ctx != key
    sets := s.sets.keep fun _ t => t.ctx != key
    slots := s.slots.keep fun _ t => t.ctx != key
    nrwaits := s.nrwaits.filter fun w => w.ctx != key
    txs := s.txs.filter fun t => (s.groups.at t.gid {}).ctx != key
    pending := s.pending.filter fun p => p.ctx != key
    tlb := s.tlb.filter fun e => !(e.vf == vfn && e.asid == asid)
    vfs := s.vfs.upd vfn fun v => { v with saveFault := v.saveFault.filter fun f => f.1 != key % 4096
                                           acceptHeld := v.acceptHeld.filter fun a => (s.queues.at a.1 {}).ctx != key
                                           order := v.order.filter fun i => (s.launches.find i).all fun l => l.ctx != key }
    contexts := s.contexts.del key }

/-- A context dies: a death event on its ring, a record for the hypervisor, and the end of all it holds (R375 to R377). -/
def State.killContext (s : State) (key reason : Nat) (cause : Nat) (addr : DWord) : State :=
  match s.contexts.find key with
  | none => s
  | some _ =>
    let info : DWord := .ofNat 64 (cause + 256 * reason)
    let s := s.postEvent key { addr, info, kind := 0x40 }
    let s := s.postErr { addr, info, kind := 0x0C, vf := ctxVf key, ctx := key % 4096 }
    let c := s.ctx key
    let s := s.dropContext key
    if c.events.held.isEmpty then s else { s with deadRings := s.deadRings ++ [(key, c)] }

/-! ### Taking a trap (R370 to R373, R375, R383) -/

/-- What raises a trap: the cause, SR.TADDR, FLANE, TRAP's code, and for a word that is no legal target its address. -/
structure TrapInfo where
  cause : Cause
  addr : DWord := 0
  lane : Nat := 0
  code : Nat := 0
  pc : Option DWord := none
  deriving DecidableEq, Repr

/-- Turn a wait's and a mark's starting cycle into the cycles counted, and back (R370, R374). -/
def Entry.turn (now : Nat) (e : Entry) : Entry :=
  { e with wait := e.wait.map fun w => { w with start := now - w.start }, yieldAt := now - e.yieldAt, blocked := false
           queued := none }

/-- SR.TCAUSE (R70). -/
def causeWord (c : Cause) (code : Nat) : Word := .ofNat 32 (256 * code + c.code)

/-- PLEV of a level (R372). -/
def Priv.code : Priv → Nat
  | .l => 0 | .s => 1 | .h => 2

/-- INH of SR.TINFO: the group is in its handler. -/
def Group.inHandler (g : Group) : Bool := g.tinfo.getLsbD 3

/-- The handler a group's crew names (R370). -/
def State.handlerOf (s : State) (g : Group) : DWord := (s.crew g.crew).params.handler

/-- The handler's own entry: all lanes, priority 15 (R370). -/
def handlerEntry (pc : DWord) : Entry := { pc, pri := 15, mask := allLanes }

/-- SR.TREP at a trap of an entry: the repetition that trapped, or at which a REP at its PC would start (R51). -/
def Entry.trep (e : Entry) : BitVec 7 := if e.pre.rep.isSome then .ofNat 7 e.pre.idx else .ofNat 7 e.resume

/-- The part of a precise trap that writes the group: the frontier saved, the trap registers, level S, the handler entry. -/
def Group.trapEntry (g : Group) (now : Nat) (handler : DWord) (ei : Nat) (e : Entry) (t : TrapInfo) : Group :=
  let me := { e with pre := {}, wait := none, blocked := false, held := none, fail := none, resume := e.trep.toNat }
  let others := byRank (g.entries.eraseIdx ei)
  { g with
    saved := (me :: others).map (Entry.turn now)
    entries := [handlerEntry handler]
    priv := .s
    tcause := causeWord t.cause t.code
    trapCause := t.cause.code
    trapAcc := g.accSeq
    tpc := t.pc.getD e.pc
    taddr := t.addr
    tlanes := e.mask
    trep := e.trep
    tinfo := .ofNat 32 (256 * t.lane + 8 + g.priv.code)
    tbarw := []
    finalExit := false
    pass := false }

/-- A precise trap of an entry: the shared entry to every handler (R370), or the death of the context (R375). -/
def State.takeTrap (s : State) (gid ei : Nat) (t : TrapInfo) : State :=
  match s.groups.find gid with
  | none => s
  | some g =>
    match g.entries[ei]? with
    | none => s
    | some e =>
      let h := s.handlerOf g
      if g.inHandler then s.killContext g.ctx 1 t.cause.code (t.pc.getD e.pc)
      else if h = 0 then s.killContext g.ctx 0 t.cause.code (t.pc.getD e.pc)
      else s.putGroup gid (g.trapEntry s.cycle h ei e t)

/-- A deferred trap of a log entry (R382): the same entry with SR.TPC 0, the faulted lanes and the log entry's number. -/
def State.takeDeferred (s : State) (gid : Nat) (logi : Nat) (lanes : Mask) (pc : DWord) (c : Cause) (addr : DWord)
    (lane : Nat) : State :=
  match s.groups.find gid with
  | none => s
  | some g =>
    let h := s.handlerOf g
    if h = 0 then s.killContext g.ctx 0 c.code 0
    else s.putGroup gid
      { g with
        saved := (byRank g.entries).map (Entry.turn s.cycle)
        entries := [handlerEntry h]
        priv := .s
        tcause := causeWord c 0
        trapCause := c.code
        trapAcc := g.accSeq
        tpc := 0
        taddr := addr
        tlanes := lanes
        trep := 0
        tlogpc := pc
        tinfo := .ofNat 32 (256 * lane + 16 * logi + 8 + 4 + g.priv.code)
        tbarw := [] }

/-! ### Returning from a trap (R374) -/

/-- The frontier ERET restores: the saved entries, entry 0 resuming at SR.TPC with the lanes SR.TLANES leaves it, unless
the trap was deferred. -/
def Group.restored (g : Group) (now : Nat) : List Entry :=
  let es := g.saved.map (Entry.turn now)
  if g.tinfo.getLsbD 2 then es
  else match es with
    | [] => []
    | e :: rest =>
      let m := e.mask &&& g.tlanes
      if m = 0 then rest else { e with pc := g.tpc, mask := m, resume := g.trep.toNat } :: rest

/-- The log entry freed. -/
def Group.freeLog (g : Group) (i : Nat) : Group :=
  { g with oplog := vecMod g.oplog i fun _ => none, logOrder := g.logOrder.filter fun j => j != i }

/-- Lanes leave a log entry, and with the last of them the entry is freed (R380, R382). -/
def Group.dropLanes (g : Group) (i : Nat) (f : LogLane → Bool) : Group :=
  match vecGet g.oplog i none with
  | none => g
  | some e =>
    let left := e.lanes.filter fun l => !f l
    if left.isEmpty then g.freeLog i else { g with oplog := vecMod g.oplog i fun _ => some { e with lanes := left } }

/-- The level PLEV names. -/
def Group.plev (g : Group) : Priv := if g.tinfo.getLsbD 1 then .h else if g.tinfo.getLsbD 0 then .s else .l

/-- The group after ERET's own effect. -/
def Group.eret (g : Group) (now : Nat) : Group :=
  let g := if g.tinfo.getLsbD 2 then g.dropLanes (bits g.tinfo.toNat 6 4) (fun l => l.wait == .taken) else g
  { g with entries := mergeAll (g.restored now), saved := [], priv := g.plev
           tinfo := g.tinfo &&& 0xFFFFFFF7, tbarw := [] }

/-! ### The checks of one word, in the order of R57 -/

/-- The registers a word names or implies, its W bit, and the checks of its encoding that need the state. -/
structure Need where
  vr : List Nat := []
  vw : List Nat := []
  gr : List Nat := []
  gw : List Nat := []
  pr : List Nat := []
  pw : List Nat := []
  qr : List Nat := []
  qw : List Nat := []
  /-- V registers only checked against the group's blocks. -/
  vx : List Nat := []
  trp : Bool := false
  illegal : Bool := false
  roles : List Role := []

/-- The end of the checks. -/
inductive Verdict where
  | go
  | wait
  | trap (t : TrapInfo)
  deriving DecidableEq, Repr

/-- Some source is empty (R63). -/
def Need.sourceEmpty (n : Need) (g : Group) (m : Mask) : Bool :=
  n.vr.any (fun r => g.vEmpty r m) || n.gr.any g.gEmpty || n.pr.any (fun r => g.pEmpty r m) || n.qr.any g.qEmpty

/-- Some destination is empty (R64). -/
def Need.destEmpty (n : Need) (g : Group) (m : Mask) : Bool :=
  n.vw.any (fun r => g.vEmpty r m) || n.gw.any g.gEmpty || n.pw.any (fun r => g.pEmpty r m) || n.qw.any g.qEmpty

/-- The lowest lane in which a source is empty; a uniform one is so for every lane (R369, R372). -/
def Need.emptyLane (n : Need) (g : Group) (m : Mask) : Nat :=
  if n.gr.any g.gEmpty || n.qr.any g.qEmpty then lowestLane m
  else lowestLane (m &&& (n.vr.foldl (fun a r => a ||| vecGet g.ve r 0) 0 ||| n.pr.foldl (fun a r => a ||| vecGet g.pe r 0) 0))

/-- A V register lies beyond the group's blocks (R39). -/
def Need.outOfRange (n : Need) (g : Group) : Bool :=
  n.vr.any (fun r => 8 * g.blocks ≤ r) || n.vw.any (fun r => 8 * g.blocks ≤ r) || n.vx.any (fun r => 8 * g.blocks ≤ r)

/-- Steps 1 to 4 of R57, and the wait of R64. -/
def Need.check (n : Need) (g : Group) (m : Mask) : Verdict :=
  if n.illegal then .trap { cause := .illegalOpcode }
  else if n.outOfRange g then .trap { cause := .regRange }
  else if !n.roles.isEmpty && !n.roles.contains g.role then .trap { cause := .roleViolation }
  else if n.sourceEmpty g m then (if n.trp then .trap { cause := .emptyRead, lane := n.emptyLane g m } else .wait)
  else if n.destEmpty g m then .wait
  else .go

/-- Run a word of the acting entry: its checks, then its effect. -/
def issue (n : Need) (s : State) (f : Nat → Group → Nat → Entry → State) : Result :=
  match s.acting with
  | none => .fault .noActor
  | some (gid, g, ei, e) =>
    match n.check g e.mask with
    | .trap t => .next (s.takeTrap gid ei t)
    | .wait => .next (s.block gid ei)
    | .go => .next (f gid g ei e)

/-- Run a word that only changes its group's registers. -/
def issueRegs (n : Need) (s : State) (f : Group → Entry → Group) : Result :=
  issue n s fun gid g ei e => (s.putGroup gid (f g e)).finish gid ei

/-- A word that is not an instruction for the acting entry (R56). -/
def illegalWord (s : State) : Result := issue { illegal := true } s fun _ _ _ _ => s

/-! ### Lane arithmetic, in a group or on a Shore unit (R97, R124) -/

/-- What a lane form reads. -/
structure LaneIn where
  v : Nat → Word
  p : Nat → Bool
  rng : Word

/-- What it writes. -/
structure LaneOut where
  v : List (Nat × Word) := []
  p : List (Nat × Bool) := []
  fl : Flags := 0
  rng : Option Word := none

/-- The last value a list gives a register. -/
def lastFor {α : Type} (xs : List (Nat × α)) (r : Nat) : Option α :=
  xs.foldl (fun acc x => if x.1 = r then some x.2 else acc) none

/-- What lane l of a group reads. -/
def Group.laneIn (g : Group) (l : Fin 128) : LaneIn :=
  { v := fun r => g.vAt r l, p := fun r => (g.pAt r).getLsbD l.val, rng := g.rng[l] }

/-- The group after a lane form in the lanes of its bundle. -/
def Group.applyLanes (g : Group) (n : Need) (m : Mask) (f : LaneIn → LaneOut) : Group :=
  let out := fun l => f (g.laneIn l)
  let g1 := n.vw.foldl (fun acc r => acc.setV r m fun l => (lastFor (out l).v r).getD (g.vAt r l)) g
  let g2 := n.pw.foldl (fun acc r => acc.setP r m fun l => (lastFor (out l).p r).getD false) g1
  { g2 with
    rng := setLanes g.rng m fun l => (out l).rng.getD g.rng[l]
    arith := (lanesIn m).foldl (fun a l => a ||| (out l).fl) g.arith }

/-- What a method run reads: M0 to M15 and P0 to P7 (R79, R124). -/
def Run.laneIn (r : Run) : LaneIn :=
  { v := fun i => vecGet r.m i 0, p := fun i => i = 0 || r.p.getLsbD i, rng := 0 }

/-- The run after a lane form; no flag is raised. -/
def Run.applyLanes (r : Run) (f : LaneIn → LaneOut) : Run :=
  let out := f r.laneIn
  { r with
    m := out.v.foldl (fun acc x => vecMod acc x.1 fun _ => x.2) r.m
    p := out.p.foldl (fun acc x => if x.1 = 0 then acc
      else if x.2 then acc ||| BitVec.ofNat 8 (2 ^ x.1) else acc &&& ~~~ BitVec.ofNat 8 (2 ^ x.1)) r.p }

/-- Change the active run and move it to its next word. -/
def State.runNext (s : State) (f : Run → Run) : State :=
  match s.shoreQ with
  | [] => s
  | r :: rest => { s with shoreQ := { f r with pc := r.pc + 1 } :: rest }

/-- A lane form. -/
def laneForm (n : Need) (s : State) (f : LaneIn → LaneOut) : Result :=
  match s.cur with
  | .shore => .next (s.runNext fun r => r.applyLanes f)
  | _ => issueRegs n s fun g e => g.applyLanes n e.mask f

end Sys2Proof.Machine
end

