-- ==== Sys2Proof/Machine/Operands.lean ====
section
/-! DEFINITION. Sys2Proof/Machine/Operands.lean: operand forms: immediates with and without LIT (R50), special registers
(R67 to R73, R371, R373, R400, R430) and the per-lane addresses of the memory forms (R186). -/
namespace Sys2Proof.Machine

/-! ### Immediates (R50) -/

/-- An immediate field of the acting entry's word, widened by its LIT if it has one. -/
def Entry.imm {w : Nat} (e : Entry) (f : BitVec w) : DWord :=
  match e.pre.lit with
  | some l => (l.signExtend 64 <<< w) ||| f.zeroExtend 64
  | none => f.signExtend 64

/-- The immediate seen by a lane form, in a group or in a method run (which has no LIT, R55). -/
def State.laneImm {w : Nat} (s : State) (f : BitVec w) : Word :=
  match s.acting with
  | some (_, _, _, e) => (e.imm f).truncate 32
  | none => f.signExtend 32

/-- The target of BR, CALL and GBR: the word's own address + 4 × imm (R32, R273, R276). -/
def Entry.target {w : Nat} (e : Entry) (off : BitVec w) : DWord := e.wordPc + 4 * e.imm off

/-! ### Conditions (R43) -/

/-- A condition of ICMP or GCMP on operands of any width; the reserved codes never reach here (R56). -/
def icond {w : Nat} (c : Nat) (a b : BitVec w) : Bool :=
  match c with
  | 0 => a == b
  | 1 => a != b
  | 2 => a.slt b
  | 3 => a.sle b
  | 4 => b.slt a
  | 5 => b.sle a
  | 6 => a.ult b
  | 7 => a.ule b
  | 8 => b.ult a
  | _ => b.ule a

/-! ### Special registers -/

/-- SR.ROLE (R67). -/
def Role.code : Role → Nat
  | .vector => 0 | .copy => 1 | .matrix => 2 | .any => 3

/-- SR.LDIM n (R71). -/
def Params.ldim (p : Params) (n : Nat) : Nat :=
  match n with
  | 0 => 128
  | 1 => p.groups
  | 2 => p.ext2
  | n + 3 => ((p.levels[n]?).map fun l => l.1).getD 1

/-- The top declared level (R71). -/
def Params.top (p : Params) : Nat := 2 + p.levels.length

/-- SR.LVL n of a group, n from 1 (R71). -/
def lvl (p : Params) (idx crew n : Nat) : Nat :=
  if n = 1 then idx
  else if p.top < n then 0
  else
    let below := ((List.range (n - 2)).foldl (fun acc k => acc * p.ldim (k + 2)) 1)
    if n = p.top then crew / below else crew / below % p.ldim n

/-- The lock state SR.OPLOG shows: HELD, an access that waits for the reply of its page, and LOST (R70, R379). -/
def Group.oplogWord (g : Group) : Word :=
  .ofNat 32 ((List.range 8).foldl (fun acc i =>
    match vecGet g.oplog i none with
    | none => acc
    | some en =>
      let lost := en.lanes.any fun l => match l.wait with
        | .lost _ _ | .taken => true
        | _ => false
      let held := en.lanes.any fun l => match l.wait with
        | .page _ | .retry => true
        | _ => false
      acc + (if held then 2 ^ i else 0) + (if lost then 2 ^ (8 + i) else 0)) 0)

/-- The FIFO entry belongs to a lane instruction. -/
def FifoOp.isLane : FifoOp → Bool
  | .store _ _ | .atom _ _ _ _ | .ste _ _ | .stf _ _ => true
  | _ => false

/-- The instruction is a lane instruction that waits in its entry. -/
def laneWaits : Instr → Bool
  | .ldf _ _ _ _ _ | .ste _ _ _ _ | .fpost _ _ _ _ => true
  | _ => false

/-- A lane instruction of the group has not completed; a lost access has, for its lanes read zero (R68, R382). -/
def Group.lanesBusy (g : Group) : Bool :=
  g.fills.any (fun f => f.mem.isSome) || g.fifo.any FifoOp.isLane || !g.posts.isEmpty ||
    (g.entries.any fun e => e.wait.any fun w => laneWaits w.instr) ||
    g.logOrder.any fun i => (vecGet g.oplog i none).any fun e => e.eng.isNone && e.lanes.any fun l => match l.wait with
      | .lost _ _ | .taken => false
      | _ => true

/-- The special register waits for the group's lane instructions before it is read or written (R68, R385). -/
def srWaits (n : Nat) : Bool := n = 0x021

/-- The saved entry SR.TFSEL selects (R373). -/
def Group.savedSel (g : Group) : Option Entry := g.saved[g.tfsel.toNat]?

/-- SR.TFINFO (R373). -/
def Group.tfinfo (g : Group) : Nat :=
  match g.savedSel with
  | none => 0
  | some e =>
    let rep := if e.pre.rep.isSome then e.pre.idx else e.resume
    256 * rep + (if g.tbarw.contains g.tfsel.toNat then 64 else 0) + (if e.yield then 32 else 0) +
      (if e.due then 16 else 0) + e.pri.toNat

/-- The rank of the die of a core among the partition's dies (R67). -/
def VF.dieRank (v : VF) (core : Nat) : Nat :=
  let die := core / 64
  ((List.range die).filter fun d => v.clusters.any fun c => c / 8 == d).length

/-- The value a group reads from a special register, none where no read is assigned at its level; SR.LANE and SR.LVL0 are
read by SRD alone and stand in `srLane` (R67, R68, R371, R400, R430). -/
def State.readSr (s : State) (g : Group) (e : Entry) (n : Nat) : Option Nat :=
  let p := (s.crew g.crew).params
  let vfn := ctxVf g.ctx
  let v := s.vf vfn
  let sh := g.priv != .l
  let priv (x : Nat) : Option Nat := if sh then some x else none
  match n with
  | 0x001 => some g.idx
  | 0x002 => some (s.crew g.crew).idx
  | 0x003 => some (v.coreNumber g.core)
  | 0x004 => some (v.rank (g.core / 8))
  | 0x005 => some (v.dieRank g.core)
  | 0x006 => some g.role.code
  | 0x007 => some e.pri.toNat
  | 0x008 => some g.priv.code
  | 0x020 => some (v.clock % 2 ^ 64)
  | 0x021 => some g.arith.toNat
  | 0x022 => some g.seed.toNat
  | 0x023 => some g.wdog.toNat
  | 0x030 => some vfn
  | 0x031 => some (g.ctx % 4096)
  | 0x040 => priv g.tcause.toNat
  | 0x041 => priv g.tpc.toNat
  | 0x042 => priv g.taddr.toNat
  | 0x043 => priv (g.tlanes.toNat % 2 ^ 64)
  | 0x044 => priv (g.tlanes.toNat / 2 ^ 64)
  | 0x045 => priv g.trep.toNat
  | 0x046 => priv g.oplogWord.toNat
  | 0x050 => priv g.tinfo.toNat
  | 0x051 => priv g.tbarae.toNat
  | 0x052 => priv g.tbartx.toNat
  | 0x053 => priv g.tlogpc.toNat
  | 0x054 => priv g.tsavea.toNat
  | 0x055 => priv g.tsaveb.toNat
  | 0x056 => priv 0
  | 0x057 => priv g.saved.length
  | 0x058 => priv g.tfsel.toNat
  | 0x059 => priv ((g.savedSel.map fun e => e.pc.toNat).getD 0)
  | 0x05A => priv g.tfinfo
  | 0x05B => priv ((g.savedSel.map fun e => e.mask.toNat % 2 ^ 64).getD 0)
  | 0x05C => priv ((g.savedSel.map fun e => e.mask.toNat / 2 ^ 64).getD 0)
  | 0x060 => some g.preempts.toNat
  | 0x061 => some v.moves.toNat
  | 0x062 => some v.frozen.toNat
  | 0x063 => some g.savedCycles.toNat
  | n =>
    if 0x011 ≤ n && n ≤ 0x017 then some (lvl p g.idx (s.crew g.crew).idx (n - 0x010))
    else if 0x018 ≤ n && n ≤ 0x01F then some (p.ldim (n - 0x018))
    else if 0x028 ≤ n && n ≤ 0x02F then some ((p.slots.getD (n - 0x028) 0).toNat)
    else if g.priv == .h && 0x800 ≤ n && n ≤ 0x803 then
      let d := vecGet s.dies (g.core % 256 % 4) {}
      match n with
      | 0x800 => some d.mevent.toNat
      | 0x801 => some s.refTime
      | 0x802 => some d.mboot.toNat
      | _ => some d.mtemp.toNat
    else none

/-- A number SRD reads besides: SR.LANE and SR.LVL0, which differ by lane (R67, R71). -/
def srPerLane (n : Nat) : Bool := n = 0x000 || n = 0x010

/-- The format slot F of a launch (R75). -/
def State.slotOf (s : State) (g : Group) (f : Nat) : Word := (s.crew g.crew).params.slots.getD f 0

/-- The slot a lane form reads: the launch's, or the copy the stream holds (R124). -/
def State.laneSlot (s : State) (f : Nat) : Word :=
  match s.cur with
  | .shore => match s.shoreQ with
    | r :: _ => (s.streams.at r.stream {}).slots.getD f 0
    | [] => 0
  | _ => match s.acting with
    | some (_, g, _, _) => s.slotOf g f
    | none => 0

/-! ### Per-lane addresses (R186) -/

/-- G[g] + ZeroExt(V[A]) of a lane. -/
def Group.addr (g : Group) (base a : Nat) (l : Fin 128) : DWord := g.gAt base + (g.vAt a l).zeroExtend 64

/-- Bytes an LD, ST of size SZ moves (R42). -/
def sizeBytes (z : Nat) : Nat :=
  match z with
  | 0 | 5 => 1
  | 1 | 6 => 2
  | 2 => 4
  | 3 => 8
  | _ => 16

/-- The V registers a size implies, from D (R45). -/
def sizeRegs (z d : Nat) : List Nat :=
  match z with
  | 3 => [d, d + 1]
  | 4 => [d, d + 1, d + 2, d + 3]
  | _ => [d]

/-- A 64-bit AOP (R45). -/
def aopWide (o : Nat) : Bool := o = 1 || o = 6 || o = 7 || o = 12 || o = 14

/-- The V registers an ATOM reads (R45). -/
def atomSources (o a : Nat) : List Nat :=
  if aopWide o then [a, a + 2, a + 3] ++ (if o = 14 then [a + 4, a + 5] else [])
  else [a, a + 1] ++ (if o = 13 then [a + 2] else [])

end Sys2Proof.Machine
end

