-- ==== Sys2Proof/Machine/Launch.lean ====
section
/-! DEFINITION. Sys2Proof/Machine/Launch.lean: launch records, room on cores, crews and their groups at start, and the queues
of tasks (R284 to R293, R299, R304, R305). -/
namespace Sys2Proof.Machine

/-! ### The launch record (R284, R285, R287) -/

/-- An address of the global aperture, 0 bits above bit 54 (R187). -/
def globalAddr (a : Nat) : Bool := a < 0x7FE00000000000

/-- Why a record is refused: STATUS bits 7:0 and the offset. -/
structure Refused where
  state : Nat
  off : Nat

/-- The first test of a list that fails, by offset. -/
def firstBad (checks : List (Nat × Bool)) : Option Nat := (checks.find? fun c => !c.2).map fun c => c.1

/-- The declared levels of a record, from level 3 (R284). -/
def recordLevels (r : List Byte) (n : Nat) : List (Nat × Nat × Nat) :=
  (List.range n).map fun i => (field r (0x30 + 8 * i) 4, field r (0x34 + 8 * i) 1, field r (0x35 + 8 * i) 1)

/-- The parameters a record holds. -/
def recordParams (addr : DWord) (r : List Byte) : Params :=
  { recAddr := addr, entry := .ofNat 64 (field r 0 8), arg := .ofNat 64 (field r 8 8)
    handler := .ofNat 64 (field r 0x10 8), stack := .ofNat 64 (field r 0x18 8), groups := field r 0x20 2
    blocks := field r 0x22 1, bands := field r 0x23 1, scratch := field r 0x24 4, ext2 := field r 0x28 4
    levels := recordLevels r (min 5 (field r 0x2C 1)), roles := .ofNat 192 (field r 0x58 24)
    slots := (List.range 8).map fun i => .ofNat 32 (field r (0x70 + 4 * i) 4)
    seed := .ofNat 32 (field r 0x90 4), stagger := field r 0x94 2, wdog := .ofNat 48 (field r 0x98 8)
    done := .ofNat 64 (field r 0xA0 8) }

/-- Crews one empty core holds (R11, R290). -/
def Params.perCore (p : Params) : Nat :=
  let byGroups := min (96 / p.groups) (512 / (p.groups * p.blocks))
  if p.scratch = 0 then byGroups else min byGroups (1048576 / p.scratch)

/-- Crews one empty cluster holds. -/
def Params.perCluster (p : Params) : Nat :=
  if p.bands = 0 then 8 * p.perCore else min (8 * p.perCore) (8 / p.bands)

/-- Crews of one unit of declared level 3 + i. -/
def Params.unit (p : Params) (i : Nat) : Nat := p.below i

/-- Declared levels by index. -/
def Params.lev (p : Params) (i : Nat) : Nat × Nat × Nat := p.levels.getD i (1, 3, 6)

/-- Crews that one cluster takes together: an instance of the outermost clu level, or one crew (R288). -/
def Params.cluGang (p : Params) : Nat :=
  match ((List.range p.levels.length).filter fun i => (p.lev i).2.1 == 0).getLast? with
  | some i => p.unit i
  | none => 1

/-- n empty clusters of one die hold an instance of declared level 3 + i: each clu instance in it lies in one of them (R287). -/
def Params.dieHolds (p : Params) (i n : Nat) : Bool := p.unit i ≤ n * (p.perCluster / p.cluGang) * p.cluGang

/-- The number of crews of a launch (R284). -/
def Params.crews (p : Params) : Nat := p.levels.foldl (fun acc l => acc * l.1) p.ext2

/-- A scope code contains a domain (R287). -/
def scopeContains (domain scope : Nat) : Bool :=
  match domain with
  | 0 => 2 ≤ scope
  | 1 => 3 ≤ scope
  | 2 => 4 ≤ scope
  | _ => 5 ≤ scope

/-- HPOL grants a scope code (R169, R339). -/
def VF.grants (v : VF) (scope : Nat) : Bool :=
  (scope != 5 || v.hpol.getLsbD 0) && (scope != 6 || v.hpol.getLsbD 1)

/-- The most clusters the partition has on one die. -/
def VF.dieClusters (v : VF) : Nat :=
  (List.range 4).foldl (fun m d => max m (v.clusters.filter fun c => c / 8 == d).length) 0

/-- One crew, and every gang, fits the empty partition (R285, state 0x83). -/
def Params.fitsPartition (p : Params) (v : VF) : Bool :=
  1 ≤ p.perCluster && !v.clusters.isEmpty &&
    (List.range p.levels.length).all fun i =>
      (p.lev i).2.1 != 1 || p.dieHolds i v.dieClusters

/-- A check of a record: the state it answers when it fails, the offset of its field, whether it holds. -/
abbrev FieldCheck := Nat × Nat × Bool

/-- The checks of one level's 8 bytes: R284's, R287's and the grants of R169. -/
def levelCheck (v : VF) (p : Params) (r : List Byte) (i : Nat) : List FieldCheck :=
  let o := 0x30 + 8 * i
  if i < p.levels.length then
    let l := p.lev i
    let prod := (p.levels.take (i + 1)).foldl (fun acc l => acc * l.1) p.ext2
    [(0x80, o, 1 ≤ l.1 && l.1 ≤ 2 ^ 24 && prod ≤ 2 ^ 32), (0x80, o + 4, l.2.1 ≤ 3),
      (0x81, o + 4, (i == 0 || (p.lev (i - 1)).2.1 ≤ l.2.1) && (l.2.1 != 0 || p.unit i ≤ p.perCluster) &&
        (l.2.1 != 1 || p.dieHolds i 8)),
      (0x80, o + 5, l.2.2 ≤ 6), (0x81, o + 5, scopeContains l.2.1 l.2.2), (0x82, o + 5, v.grants l.2.2),
      (0x80, o + 6, field r (o + 6) 2 == 0)]
  else [(0x80, o, field r o 8 == 0)]

/-- The checks of a record in offset order (R284, R287, R169, R75, R94). -/
def recordChecks (v : VF) (p : Params) (r : List Byte) : List FieldCheck :=
  [(0x80, 0x00, field r 0 8 % 4 == 0 && globalAddr (field r 0 8)), (0x80, 0x10, field r 0x10 8 % 4 == 0),
    (0x80, 0x18, field r 0x18 8 % 65536 == 0), (0x80, 0x20, 1 ≤ p.groups && p.groups ≤ 96),
    (0x80, 0x22, 1 ≤ p.blocks && p.blocks ≤ 16), (0x80, 0x23, p.bands ≤ 8),
    (0x80, 0x24, p.scratch % 4 == 0 && p.scratch ≤ 1048576), (0x80, 0x28, 1 ≤ p.ext2 && p.ext2 ≤ 2 ^ 24),
    (0x80, 0x2C, field r 0x2C 1 ≤ 5), (0x80, 0x2D, field r 0x2D 3 == 0)] ++
  (List.range 5).flatMap (levelCheck v p r) ++
  ((List.range 8).map fun i => (0x80, 0x70 + 4 * i, slotOk (.ofNat 32 (field r (0x70 + 4 * i) 4)))) ++
  [(0x80, 0x96, field r 0x96 2 == 0), (0x80, 0x98, field r 0x98 8 < 2 ^ 48), (0x80, 0xA8, field r 0xA8 80 == 0)]

/-- R285's judgement of a record's 256 bytes: field by field in offset order, then its room in the partition. -/
def judge (v : VF) (addr : DWord) (r : List Byte) : Except Refused Params :=
  let p := recordParams addr r
  match (recordChecks v p r).find? fun c => !c.2.2 with
  | some c => .error ⟨c.1, c.2.1⟩
  | none => if p.fitsPartition v then .ok p else .error ⟨0x83, 0⟩

/-! ### Room on a core (R290) -/

/-- Groups resident on a core. -/
def State.resident (s : State) (core : Nat) : List (Nat × Group) := s.groups.filter fun g => g.2.core == core

/-- Crews resident on a core. -/
def State.crewsOn (s : State) (core : Nat) : List (Nat × Crew) := s.crews.filter fun c => c.2.core == core

/-- Register blocks in use on a core: the groups' and the crews' pools (R309). -/
def State.blocksUsed (s : State) (core : Nat) : Nat :=
  (s.resident core).foldl (fun n g => n + g.2.blocks) 0 + (s.crewsOn core).foldl (fun n c => n + c.2.pool) 0

/-- Bands in use in a cluster: first band and count. -/
def State.bandsUsed (s : State) (cluster : Nat) : List (Nat × Nat) :=
  (s.crews.filter fun c => c.2.core / 8 == cluster && c.2.params.bands != 0).map fun c => (c.2.band0, c.2.params.bands)

/-- The lowest free run of bands (R134). -/
def State.freeBands (s : State) (cluster n : Nat) : Option Nat :=
  if n = 0 then some 0
  else (List.range (9 - n)).find? fun b => (s.bandsUsed cluster).all fun u => b + n ≤ u.1 || u.1 + u.2 ≤ b

/-- The lowest place for a scratchpad allocation; when the free bytes are scattered, one of the crew's own beyond them. -/
def State.freeScratch (s : State) (core n key : Nat) : Nat :=
  let used := (s.crewsOn core).map fun c => (c.2.sbase, c.2.params.scratch)
  let ok (b : Nat) : Bool := b + n ≤ 1048576 && used.all fun u => u.2 == 0 || b + n ≤ u.1 || u.1 + u.2 ≤ b
  ((0 :: used.map fun u => u.1 + u.2).find? ok).getD (1048576 * (key + 1))

/-- A crew of these parameters fits on a core now. -/
def State.fits (s : State) (p : Params) (core : Nat) : Bool :=
  (s.resident core).length + p.groups ≤ 96 && s.blocksUsed core + p.groups * p.blocks ≤ 512 &&
    (s.crewsOn core).foldl (fun n c => n + c.2.params.scratch) 0 + p.scratch ≤ 1048576 &&
    (s.freeBands (core / 8) p.bands).isSome

/-! ### Crews at start (R61, R76 to R78, R290) -/

/-- The role of group i (R289). -/
def Params.role (p : Params) (i : Nat) : Role :=
  match bits p.roles.toNat (2 * i + 1) (2 * i) with
  | 0 => .vector
  | 1 => .copy
  | 2 => .matrix
  | _ => .any

/-- The seed of a lane's rounding generator (R77, R92). -/
def laneSeed (p : Params) (seed : Word) (crew idx : Nat) (l : Fin 128) : Word :=
  seedState (seed ^^^ .ofNat 32 ((128 * (crew * p.groups + idx) + l.val) * 0x9E3779B9))

/-- SR.WDOG at start (R72). -/
def startWdog (w : BitVec 48) : BitVec 48 := if w = 0 then 0x4000000 else w

/-- A group at its start (R61, R76). -/
def startGroup (crew : Nat) (c : Crew) (idx : Nat) (priv : Priv) (pc g0 g1 : DWord) (seed : Word) : Group :=
  { crew, idx, ctx := c.ctx, core := c.core, role := c.params.role idx, priv, blocks := c.params.blocks
    g := Vector.ofFn fun i => if i.val = 0 then g0 else if i.val = 1 then g1 else 0
    rng := lanesOf fun l => laneSeed c.params seed c.idx idx l
    entries := [{ pc, mask := allLanes }], wdog := startWdog c.params.wdog, seed, begun := false }

/-- The free resident slots of a core. -/
def State.freeSlots (s : State) (core n : Nat) : List Nat :=
  ((List.range 96).filter fun i => (s.groups.find (96 * core + i)).isNone).take n

/-- Clear a crew's scratchpad and fill its tags (R78). -/
def Core.clearScratch (c : Core) (base n : Nat) : Core :=
  { c with mem := c.mem.filter fun b => !(base ≤ b.1 && b.1 < base + n)
           emptyTags := c.emptyTags.filter fun w => !(base ≤ 4 * w && 4 * w < base + n) }

/-- Clear a run of accumulator bands (R134). -/
def Cluster.clearBands (c : Cluster) (band n : Nat) : Cluster :=
  { c with acc := c.acc.filter fun a => !(131072 * band ≤ a.1 && a.1 < 131072 * (band + n)) }

/-- Start a crew on a core: its groups all at once, scratchpad zero with full tags, bands +0 (CREW_START). -/
def State.startCrew (s : State) (ctx core crewIdx : Nat) (p : Params) (origin : Origin) (priv : Priv)
    (pc g0 g1 : DWord) (seed : Word) : State :=
  let key := s.nextCrew
  let slots := s.freeSlots core p.groups
  let gids := slots.map fun i => 96 * core + i
  let crew : Crew :=
    { ctx, core, idx := crewIdx, origin, params := p, groups := gids, sbase := s.freeScratch core p.scratch key
      band0 := (s.freeBands (core / 8) p.bands).getD 0, started := p.stagger == 0, begun := false }
  let s := s.updCore core fun c => c.clearScratch crew.sbase p.scratch
  let s := s.updCluster (core / 8) fun c => c.clearBands crew.band0 p.bands
  { s with
    nextCrew := key + 1
    crews := s.crews.put key crew
    groups := (gids.zip (List.range p.groups)).foldl (fun gs x =>
      gs.put x.1 (startGroup key crew x.2 priv pc g0 g1 seed)) s.groups }

/-! ### Placing a launch (R288, R293) -/

/-- The number of crews that are placed together: one instance of the outermost clu or die level, or one crew (R288). -/
def Params.gang (p : Params) : Nat :=
  match ((List.range p.levels.length).filter fun i => (p.lev i).2.1 ≤ 1).getLast? with
  | some i => p.unit i
  | none => 1

/-- The crews of a gang lie where their levels bind them (R288): each clu instance in one cluster, each die instance in
one die. -/
def Params.bound (p : Params) (first : Nat) (places : List Nat) : Bool :=
  (List.range p.levels.length).all fun i =>
    2 ≤ (p.lev i).2.1 ||
      let span := if (p.lev i).2.1 == 0 then 8 else 64
      let tagged := places.zipIdx.map fun x => (p.instanceOf i (first + x.2), x.1 / span)
      tagged.all fun a => tagged.all fun b => a.1 != b.1 || a.2 == b.2

/-- Place crews one by one; none when one does not fit. -/
def State.placeCrews (id : Nat) (l : Launch) : List (Nat × Nat) → State → Option State
  | [], s => some s
  | (core, idx) :: rest, s =>
    if s.fits l.params core then
      State.placeCrews id l rest (s.startCrew l.ctx core idx l.params (.launch id) l.priv l.params.entry l.params.arg 0
        l.params.seed)
    else none

/-! ### Task queues (R304, R305) -/

/-- Queued and running tasks of a core. -/
def State.taskLoad (s : State) (core : Nat) : Nat :=
  (s.core core).tasks.length + (s.core core).copyTasks.length +
    ((s.crewsOn core).filter fun c => match c.2.origin with
      | .launch _ => false
      | _ => true).length

/-- The core of a list with the least load, the lower number on a tie. -/
def State.leastLoaded (s : State) : List Nat → Nat
  | [] => 0
  | c :: rest => rest.foldl (fun best k => if s.taskLoad k < s.taskLoad best then k else best) c

/-- The four cores paired with a memory slice (R304). -/
def sliceCores (slice : Nat) : List Nat := (List.range 4).map fun i => 8 * (slice / 2) + 4 * (slice % 2) + i

/-- The home slice of a main operand, when it translates at once and lies in the partition. -/
def State.homeSlice (s : State) (ctx : Nat) (main : DWord) (lev : Priv) : Option Nat :=
  if main = 0 || !globalAddr main.toNat then none
  else match s.translate ctx main.toNat .load lev with
    | .ok e =>
      let o := s.owner (e.pa main.toNat)
      if (s.vf (ctxVf ctx)).slices2.contains o then some o else none
    | _ => none

/-- The queue a task joins has room: on chip, or in the task area (R306). -/
def State.roomFor (s : State) (t : Task) (core : Nat) : Bool :=
  (s.core core).tasks.length < 256 || (s.ctx t.ctx).areaUsed + 64 ≤ (s.ctx t.ctx).tasksize

/-- Put a task in a core's queue: by priority class, then arrival (R304). -/
def insertTask (t : Task) : List Task → List Task
  | [] => [t]
  | u :: r => if u.prio < t.prio then t :: u :: r else u :: insertTask t r

/-- A task joins the queue of its home core; none when it must wait for room. -/
def State.placeTask (s : State) (t : Task) (lev : Priv) (others : List Nat) : Option State :=
  let slice := s.homeSlice t.ctx t.main lev
  let core := s.leastLoaded ((slice.map sliceCores).getD others)
  if !s.roomFor t core then none
  else
    let spill := 256 ≤ (s.core core).tasks.length
    let t := { t with spilled := spill, since := s.cycle, home := slice.getD (core / 4) }
    let s := s.updCore core fun c => { c with tasks := insertTask t c.tasks }
    some (if spill then s.updCtx t.ctx fun c => { c with areaUsed := c.areaUsed + 64 } else s)

/-- The parameters of a task's crew of one (R299). -/
def Task.crewParams (t : Task) : Params :=
  { t.params with groups := 1, ext2 := 1, levels := [], done := 0, stagger := 0, recAddr := t.record }

/-- Start a compute task, a fault task or a firing on a core (R299, R302, R322). -/
def State.startTask (s : State) (t : Task) (core : Nat) : State :=
  let origin := match t.set with
    | some k => Origin.firing k t.record
    | none => Origin.task t.record t.succ
  s.startCrew t.ctx core 0 t.crewParams origin (if t.kind == 3 then .s else .l) t.entry t.arg t.record
    (t.params.seed ^^^ .ofNat 32 (t.record.toNat / 64))

end Sys2Proof.Machine
end

