-- ==== Sys2Proof/Machine/Memory.lean ====
section
/-! DEFINITION. Sys2Proof/Machine/Memory.lean: the accesses of the lanes: checks, the operand log, the L1 data cache, forwarding
from the store FIFO, and LD, ST, ATOM and PF with the operations that perform them (R190 to R201, R204, R369, R378 to R382). -/
namespace Sys2Proof.Machine

/-! ### Bytes of the store FIFO (R173, R192) -/

/-- The location i bytes on. -/
def Loc.plus (l : Loc) (i : Nat) : Loc :=
  match l with
  | .phys pa => .phys (pa + i)
  | .scratch c o => .scratch c (o + i)
  | .fabric v w o => .fabric v w (o + i)

/-- n bytes at one location overlap m bytes at another. -/
def locOverlap (a : Loc) (n : Nat) (b : Loc) (m : Nat) : Bool :=
  match a, b with
  | .phys x, .phys y => x < y + m && y < x + n
  | .scratch c x, .scratch d y => c == d && x < y + m && y < x + n
  | .fabric u v x, .fabric w z y => u == w && v == z && x < y + m && y < x + n
  | _, _ => false

/-- The bytes a part writes. -/
def StorePart.cells (p : StorePart) : List (Loc × Byte) := p.bytes.zipIdx.map fun x => (p.loc.plus x.2, x.1)

/-- The bytes an entry writes as a store, in lane order. -/
def FifoOp.cells : FifoOp → List (Loc × Byte)
  | .store _ ps => ps.flatMap StorePart.cells
  | .bowset _ _ _ _ ps => ps.flatMap StorePart.cells
  | .ste _ ps | .stf _ ps => ps.flatMap StorePart.cells
  | _ => []

/-- The last byte a list of writes leaves at a location. -/
def cellAt (cs : List (Loc × Byte)) (l : Loc) : Option Byte := (cs.reverse.find? fun c => c.1 == l).map fun c => c.2

/-- Width of an AOP in bytes (R200). -/
def aopBytes (o : Nat) : Nat := if aopWide o then 8 else 4

/-- What a load finds in the store FIFO. -/
inductive Fwd where
  | none
  | take (bs : List Byte)
  | wait
  deriving DecidableEq, Repr

/-- What one entry holds of n bytes at a location. -/
def FifoOp.fwd (o : FifoOp) (l : Loc) (n : Nat) : Fwd :=
  match o with
  | .atom _ aop lanes _ => if lanes.any fun x => locOverlap x.loc (aopBytes aop.toNat) l n then .wait else .none
  | o =>
    let got := (List.range n).map fun i => cellAt o.cells (l.plus i)
    if got.all (·.isNone) then .none
    else if got.all (·.isSome) then .take (got.map fun b => b.getD 0)
    else .wait

/-- The youngest entry that matches, entries youngest first (R192). -/
def forwardFrom (l : Loc) (n : Nat) : List FifoOp → Fwd
  | [] => .none
  | o :: r => match o.fwd l n with
    | .none => forwardFrom l n r
    | x => x

/-- What a load finds in a group's FIFO. -/
def Group.forward (g : Group) (l : Loc) (n : Nat) : Fwd := forwardFrom l n g.fifo.reverse

/-! ### Reservations and log entries (R378, R379) -/

/-- The memory form a FIFO entry belongs to. -/
def FifoOp.acc : FifoOp → Option Nat
  | .store s _ => some s.acc
  | .atom s _ _ _ => some s.acc
  | .bowset s _ _ _ _ => some s.acc
  | .ste seq _ => some seq
  | .stf s _ => some s.acc
  | _ => none

/-- The entry waits on a tag (R198). -/
def Entry.tagWait (e : Entry) : Option Nat :=
  match e.wait with
  | some w => if w.phase = 7 then some w.ref else none
  | none => none

/-- The entry waits for an engine queue entry with an ACLD or ACST (R147). -/
def Entry.rectWait (e : Entry) : Bool :=
  match e.wait with
  | some w => match w.instr with
    | .acld _ _ _ _ _ | .acst _ _ _ _ _ => true
    | _ => false
  | none => false

/-- Reservations and log entries the group holds. -/
def Group.reserved (g : Group) : Nat :=
  let accs := g.fills.filterMap (fun f => f.mem) ++ g.fifo.filterMap FifoOp.acc ++ g.entries.filterMap Entry.tagWait ++
    g.saved.filterMap Entry.tagWait ++
    g.logOrder.filterMap fun i => (vecGet g.oplog i none).bind fun e => if e.eng.isNone then some e.src.acc else none
  accs.eraseDups.length + (g.engq.filter fun o => o.kind == .acld || o.kind == .acst).length +
    (g.entries ++ g.saved).countP Entry.rectWait

/-- The description of the acting entry's word as a memory form. -/
def Group.source (g : Group) (e : Entry) (i : Instr) : Source :=
  { acc := g.accSeq, lev := g.priv, instr := i, pc := e.pc, lit := e.pre.lit, rep := e.pre.idx }

/-- Insert a faulted lane in lane order. -/
def insertLogLane (x : LogLane) : List LogLane → List LogLane
  | [] => [x]
  | y :: r => if x.lane.val < y.lane.val then x :: y :: r else y :: insertLogLane x r

/-- Log faulted lanes of an instruction, in its entry if it has one. -/
def Group.logLanes (g : Group) (src : Source) (lanes : List LogLane) : Group :=
  if lanes.isEmpty then g
  else
    let own := (List.range 8).find? fun i => (vecGet g.oplog i none).any fun e => e.eng.isNone && e.src.acc == src.acc
    match own with
    | some i =>
      { g with oplog := vecMod g.oplog i fun o => o.map fun e => { e with lanes := lanes.foldr insertLogLane e.lanes } }
    | none =>
      match (List.range 8).find? fun i => (vecGet g.oplog i none).isNone with
      | some i => { g with oplog := vecMod g.oplog i fun _ => some { src, lanes }, logOrder := g.logOrder ++ [i] }
      | none => g

/-- What the group waits for on an intermediate page, if it holds an entry there (R379). -/
def Group.heldPage (g : Group) (vf page : Nat) : Option Held :=
  g.logOrder.findSome? fun i => (vecGet g.oplog i none).bind fun e => e.lanes.findSome? fun l =>
    match l.wait with
    | .page h => if h.vf == vf && h.page == page then some h else none
    | _ => none

/-! ### The checks of one lane (R193, R369) -/

/-- A page request to raise: offset, whether a table read missed, and the virtual address. -/
structure Ask where
  held : Held
  off : Nat
  table : Bool
  va : Nat
  deriving DecidableEq, Repr

/-- The end of the checks of one lane: where it goes, a cause with its rank in R369, or what it is logged for. -/
inductive LaneEnd where
  | loc (l : Loc) (tlb : Option TlbEntry)
  | bad (rank : Nat) (c : Cause)
  | log (w : LogWait) (ask : Option Ask) (line : Option Nat)
  deriving DecidableEq, Repr

/-- Translate a lane's virtual address; `behind`: an access to a page the group holds is logged behind it (R379). -/
def State.walkEnd (s : State) (g : Group) (va : Nat) (k : Acc) (lev : Priv) (behind : Bool) : LaneEnd :=
  match s.translate g.ctx va k lev with
  | .cause .pageNotPresent => .bad 5 .pageNotPresent
  | .cause c => .bad 6 c
  | .lost c pa => .log (.lost c s.tick) none (some pa)
  | .miss h table off => .log (.page h) (some ⟨h, off, table, va⟩) none
  | .ok e =>
    match if behind then g.heldPage e.vf e.ipage else none with
    | some h => .log (.page h) none none
    | none => .loc (.phys (e.pa va)) (some e)

/-- Where a steered access ends. -/
def State.placeEnd (s : State) (g : Group) (w : Where) (k : Acc) (lev : Priv) (behind : Bool) : LaneEnd :=
  match w with
  | .scratch c o => .loc (.scratch c o) none
  | .fabric win o => .loc (.fabric (ctxVf g.ctx) win o) none
  | .virt va => s.walkEnd g va k lev behind

/-- What the group's access to a location waits for, where an earlier access of it to the same 16 bytes is logged for a port or a
window: it stays behind that one, so that R173 holds (R379). -/
def Group.portWait (g : Group) (lane addr : Nat) : Option LogWait :=
  g.logOrder.findSome? fun i => (vecGet g.oplog i none).bind fun e => e.lanes.findSome? fun l =>
    if l.addr.toNat / 16 != addr / 16 || (l.lane.val != lane && bits addr 63 44 == 0x7FE) then none
    else match l.wait with
    | .port p _ => some (.port p false)
    | .window w => some (.window w)
    | _ => none

/-- The checks of one lane, in the order of R369. -/
def State.laneEnd (s : State) (g : Group) (lane : Nat) (addr n : Nat) (k : Acc) : LaneEnd :=
  match s.locate g lane addr n k with
  | none => .bad 2 .accessViolation
  | some w =>
    if addr % n != 0 then .bad 3 .misaligned
    else if s.lockHit g w n k then .bad 4 .rangeConflict
    else match s.placeEnd g w k g.priv true, w with
    | .loc l t, .scratch _ _ => .loc l t
    | .loc l t, _ => match g.portWait lane addr with
      | some x => .log x none none
      | none => .loc l t
    | x, _ => x

/-- One lane of a memory form with the end of its checks. -/
structure LaneAcc where
  lane : Fin 128
  addr : DWord
  fin : LaneEnd
  deriving DecidableEq, Repr

/-- The trap the lanes decide, if any: the first cause any lane has, then the lowest lane (R369). -/
def worst (ls : List LaneAcc) : Option TrapInfo :=
  (ls.foldl (fun acc l => match l.fin with
    | .bad r c => match acc with
      | some (r0, _) => if r < r0 then some (r, { cause := c, addr := l.addr, lane := l.lane.val }) else acc
      | none => some (r, ({ cause := c, addr := l.addr, lane := l.lane.val } : TrapInfo))
    | _ => acc) (none : Option (Nat × TrapInfo))).map fun x => x.2

/-- What a lane's translation leaves behind: a TLB entry, a page request, or a record (R357, R358, R422). -/
def State.noteEnd (s : State) (g : Group) (k : Acc) (l : LaneEnd) : State :=
  match l with
  | .loc _ (some t) => s.holdTlb t
  | .log _ (some a) _ => s.requestFor a.held g.ctx g.core a.va a.off a.table k.requestKind
  | .log _ none (some pa) => s.lineRecord pa (ctxVf g.ctx) (g.ctx % 4096)
  | _ => s

/-- The offset in its page of the lowest byte at which lanes miss as a lane does (R358). -/
def lowestOff (ls : List LaneAcc) (a : Ask) : Nat :=
  ls.foldl (fun n l => match l.fin with
    | .log _ (some b) _ => if b.held == a.held && b.table == a.table then min n b.off else n
    | _ => n) a.off

/-- The end of a lane, its request naming the lowest byte that the lanes miss. -/
def LaneEnd.lowered (ls : List LaneAcc) (l : LaneEnd) : LaneEnd :=
  match l with
  | .log w (some a) p => .log w (some { a with off := lowestOff ls a, va := a.va - a.off + lowestOff ls a }) p
  | x => x

/-- The same for every lane. -/
def State.noteAll (s : State) (g : Group) (k : Acc) (ls : List LaneAcc) : State :=
  ls.foldl (fun s l => s.noteEnd g k (l.fin.lowered ls)) s

/-- The lanes that go on, with their places. -/
def placed (ls : List LaneAcc) : List (Fin 128 × DWord × Loc) :=
  ls.filterMap fun l => match l.fin with
    | .loc p _ => some (l.lane, l.addr, p)
    | _ => none

/-- The lanes that are logged, each with its operands. -/
def toLog (ls : List LaneAcc) (data : Fin 128 → List Word) : List LogLane :=
  ls.filterMap fun l => match l.fin with
    | .log w _ _ => some { lane := l.lane, addr := l.addr, data := data l.lane, wait := w }
    | _ => none

/-- The word is a FENCE, or one that withholds what a FENCE does (R212, R252, R365). -/
def withholds : Instr → Bool
  | .fence _ _ _ | .rtrel _ _ _ | .tlbiVa _ _ _ | .tlbiAsid _ _ | .tlbiVf _ _ | .tlbiIpa _ _ _ | .tlbiS2 _ _ => true
  | _ => false

/-- A FENCE of the group's live frontier is incomplete (R212). -/
def Group.fencing (g : Group) : Bool :=
  g.entries.any fun e => match e.wait with
    | some w => withholds w.instr
    | none => false

/-- A memory form of the acting entry: its checks, and the wait for a FENCE of the group (R212). -/
def issueMem (n : Need) (s : State) (f : Nat → Group → Nat → Entry → State) : Result :=
  issue n s fun gid g ei e => if g.fencing then s.block gid ei else f gid g ei e

/-- Live entries of the group that waited for a log reservation before a step. -/
def Group.loggersBefore (g : Group) (t : Nat) : Nat :=
  (g.entries.zipIdx.filter fun x =>
    isLive g.entries x.2 x.1 && x.1.queued.any fun q => q.asks.isEmpty && q.since < t).length

/-- A log reservation is free for an entry, behind those that waited before it (R378). -/
def State.mayLog (s : State) (g : Group) (e : Entry) : Bool := g.reserved + g.loggersBefore (s.turnOf e) < 8

/-- A memory form that takes a log reservation (R378). -/
def issueLogged (n : Need) (s : State) (f : Nat → Group → Nat → Entry → State) : Result :=
  issueMem n s fun gid g ei e => if s.mayLog g e then f gid g ei e else s.queueAt gid ei []

/-- The lanes of a bundle with their addresses and the ends of their checks. -/
def State.laneAccs (s : State) (g : Group) (m : Mask) (addr : Fin 128 → DWord) (n : Nat) (k : Acc) : List LaneAcc :=
  (lanesIn m).map fun l => ⟨l, addr l, s.laneEnd g l.val (addr l).toNat n k⟩

/-! ### The L1 data cache (R190, R191) -/

/-- The sector of a physical address is in the core's L1 and is still held (log 9). -/
def State.l1Hit (s : State) (core k : Nat) : Option (List Byte) :=
  match (s.core core).l1.find k with
  | none => none
  | some b => if b == s.mem.bytes (16 * k) 16 || Config.keepCached s.tick then some b else none

/-- The n bytes of global memory a load of a core sees; H = 2 never looks up L1. -/
def State.l1Bytes (s : State) (core h pa n : Nat) : List Byte :=
  (List.range n).map fun i =>
    let k := (pa + i) / 16
    match if h = 2 then none else s.l1Hit core k with
    | some b => b.getD ((pa + i) % 16) 0
    | none => s.mem.read (pa + i)

/-- The grain of a request that touches bytes lo to hi of one line (R191). -/
def grain (lo hi : Nat) : Nat := ([16, 32, 64].find? fun g => lo / g == hi / g).getD 128

/-- The sectors a coalesced load of bytes lo to hi of one line fetches. -/
def grainSectors (lo hi : Nat) : List Nat :=
  let g := grain lo hi
  (List.range (g / 16)).map fun i => lo / g * (g / 16) + i

/-- Drop the stale sectors of a core that a load has read past: no later load sees them (R172). -/
def State.dropStale (s : State) (core h : Nat) (touched : List (Nat × Nat)) : State :=
  let read (k : Nat) : Bool := touched.any fun t => t.1 / 16 ≤ k && k ≤ (t.1 + t.2 - 1) / 16
  if h != 2 && Config.keepCached s.tick then s
  else s.updCore core fun c => { c with l1 := c.l1.filter fun x => !(read x.1 && x.2 != s.mem.bytes (16 * x.1) 16) }

/-- The requests of a coalesced access, one for each line: the lowest and the highest byte it touches there (R191). -/
def lineSpans (touched : List (Nat × Nat)) : List (Nat × Nat) :=
  ((touched.map fun t => t.1 / 128).eraseDups).map fun line =>
    let mine := touched.filter fun t => t.1 / 128 == line
    (mine.foldl (fun a t => min a t.1) (128 * line + 127), mine.foldl (fun a t => max a (t.1 + t.2 - 1)) (128 * line))

/-! ### Budgets and row activations (R341, R342, R344) -/

/-- BUDGET of a memory slice. -/
def State.sliceBudget (s : State) (slice : Nat) : Nat :=
  match s.vfs.find? fun v => v.2.clusters.contains (slice / 2) with
  | some v => vecGet v.2.budget (slice / 2) 0
  | none => 0

/-- A request reaches its slice: charged now, or waiting behind those that wait (R342). -/
def State.charge (s : State) (r : SliceReq) : State :=
  let n := s.spent.at r.slice 0 + r.cost
  if (s.sliceWait.all fun x => x.slice != r.slice) && n ≤ s.sliceBudget r.slice then { s with spent := s.spent.put r.slice n }
  else { s with sliceWait := s.sliceWait ++ [r] }

/-- The count of a row for a virtual function. -/
def State.rowCount (s : State) (key : Nat × Nat × Nat) : Nat :=
  ((s.rows.find? fun r => r.1 == key).map fun r => r.2).getD 0

/-- A virtual function's count of a row becomes n: from THRESH on each activation is delayed, and the delay charged; the
first crossing of an interval is recorded (R344). -/
def State.countRow (s : State) (slice vf row n : Nat) : State :=
  let key := (slice, row, vf)
  let first := s.rowCount key < s.rowThresh && s.rowThresh ≤ n
  let s := { s with rows := (key, n) :: s.rows.filter fun r => r.1 != key }
  let s := if s.rowThresh ≤ n then { s with spent := s.spent.put slice (s.spent.at slice 0 + s.rowDelay) } else s
  if first then s.postErr { addr := .ofNat 64 row, kind := 0x08, vf, unit := slice } else s

/-- One request to the HBM4 array, where the slice misses: the line it evicts, its own cost, and its row's activation. -/
def State.meterLine (s : State) (vf : Nat) (who : Option (Nat × Nat)) (span : Nat × Nat) : State :=
  let line := span.1 / 128
  if !(s.vf vf).regions.contains (span.1 / 2 ^ 30) || (cxlPort span.1).isSome || !Config.sliceMiss s.tick line then s
  else
    let slice := s.owner span.1
    let s := if Config.writesBack s.tick line then s.charge { slice, cost := 8 } else s
    let s := s.charge { slice, cost := grain span.1 span.2 / 16, who }
    if Config.activates s.tick line then
      s.countRow slice vf (Config.rowOf line) (s.rowCount (slice, Config.rowOf line, vf) + 1)
    else s

/-- The requests of a coalesced access (R191, R341). -/
def State.meter (s : State) (vf : Nat) (who : Option (Nat × Nat)) (touched : List (Nat × Nat)) : State :=
  (lineSpans touched).foldl (fun s x => s.meterLine vf who x) s

/-- Fill the fetched sectors of the lines that a normal load touches. -/
def State.fillL1 (s : State) (core : Nat) (touched : List (Nat × Nat)) : State :=
  let secs := (lineSpans touched).flatMap fun x => grainSectors x.1 x.2
  let fresh := secs.filter fun k => (s.l1Hit core k).isNone && (s.lineFault (16 * k)).isNone
  if fresh.isEmpty then s
  else s.updCore core fun c => { c with l1 := fresh.foldl (fun m k => m.put k (s.mem.bytes (16 * k) 16)) c.l1 }

/-- An acquire at .clu or wider empties the core's L1 (R170, R190). -/
def State.dropL1 (s : State) (core : Nat) : State := s.updCore core fun c => { c with l1 := [] }

/-- An acquire at a scope (R170). -/
def State.acquire (s : State) (core scope : Nat) : State := if 2 ≤ scope then s.dropL1 core else s

/-- Remove the sectors of the 128-byte lines of n bytes at a physical address from the core's L1 (R190). -/
def Core.dropSectors (c : Core) (pa n : Nat) : Core :=
  { c with l1 := c.l1.filter fun x => !(pa / 128 ≤ x.1 / 8 && x.1 / 8 ≤ (pa + n - 1) / 128) }

/-- A store of the core updates the sectors that are present (R190). -/
def Core.storeSectors (c : Core) (pa : Nat) (bs : List Byte) : Core :=
  { c with l1 := c.l1.mapAll fun k old => old.zipIdx.map fun x =>
      let a := 16 * k + x.2
      if pa ≤ a && a < pa + bs.length then bs.getD (a - pa) x.1 else x.1 }

/-! ### Scratchpad bytes (R195) -/

/-- The n bytes of a scratchpad. -/
def State.scratchBytes (s : State) (core off n : Nat) : List Byte := (s.core core).mem.bytes off n

/-- Write scratchpad bytes and fill the tags of the words they lie in. -/
def Core.storeScratch (c : Core) (off : Nat) (bs : List Byte) : Core :=
  { c with mem := c.mem.writeBytes off bs
           emptyTags := c.emptyTags.filter fun w => !(off / 4 ≤ w && w ≤ (off + bs.length - 1) / 4) }

/-! ### Values on their way to lanes (R62, R195, R201) -/

/-- Word j of a loaded value under a size (R195). -/
def loadWord (z : Nat) (bs : List Byte) (j : Nat) : Word :=
  match z with
  | 5 => (BitVec.ofNat 8 (leNat bs)).signExtend 32
  | 6 => (BitVec.ofNat 16 (leNat bs)).signExtend 32
  | _ => .ofNat 32 (leNat ((bs.drop (4 * j)).take 4))

/-- The bytes a list gives a lane. -/
def gotFor (got : List (Fin 128 × List Byte)) (l : Fin 128) : List Byte :=
  ((got.find? fun x => x.1 == l).map fun x => x.2).getD []

/-- The lanes of a list. -/
def gotMask (got : List (Fin 128 × List Byte)) : Mask := maskOfList (got.map fun x => x.1)

/-- The fills of registers that begin at d, from the bytes of each lane. -/
def landRegs (regs : List Nat) (z : Nat) (got : List (Fin 128 × List Byte)) : List (BitVec 7 × Mask × Lanes Word) :=
  regs.zipIdx.map fun r => (.ofNat 7 r.1, gotMask got, lanesOf fun l => loadWord z (gotFor got l) r.2)

/-- What the bytes of an LD, a TEX, a TLD or a returning ATOM fill. -/
def landFill (i : Instr) (got : List (Fin 128 × List Byte)) : List (BitVec 7 × Mask × Lanes Word) :=
  match i with
  | .ld d _ _ z _ _ => landRegs (sizeRegs z.toNat d.toNat) z.toNat got
  | .atom d _ _ o n _ =>
    if n then [] else landRegs (if aopWide o.toNat then [d.toNat, d.toNat + 1] else [d.toNat]) 4 got
  | .tex d _ _ _ _ | .tld d _ _ _ _ => landRegs [d.toNat, d.toNat + 1, d.toNat + 2, d.toNat + 3] 4 got
  | _ => []

/-- Lanes that EXIT has ended since a memory form issued (R277). -/
def Group.endedSince (g : Group) (acc : Nat) : Mask := g.exits.foldl (fun m x => if acc < x.1 then m ||| x.2 else m) 0

/-- Fill V registers for a memory form; what comes for a lane that has ended is discarded. -/
def Group.fillRegs (g : Group) (acc : Nat) (v : List (BitVec 7 × Mask × Lanes Word)) : Group :=
  v.foldl (fun g x => (g.setV x.1.toNat (x.2.1 &&& ~~~ g.endedSince acc) fun l => x.2.2[l]).fullV x.1.toNat x.2.1) g

/-! ### Accesses through the ports (R348, R361, R381) -/

/-- One lane's access through a port: the window, or none for memory; the offset or physical address; the bytes memory holds
for a load; and the data a store or an atomic carries. -/
structure FarLane where
  lane : Fin 128
  addr : DWord
  port : Nat
  win : Option Nat
  off : Nat
  bytes : List Byte := []
  data : List Word := []
  deriving DecidableEq, Repr

/-- The port a fabric window's accesses leave through. -/
def State.winPort (s : State) (vf w : Nat) : Nat := windowPort ((s.vf vf).windows.at w {})

/-- Send the transactions of a memory form, one for each window or CXL port it names; kind 0 load, 1 store, 2 atomic. -/
def State.sendFar (s : State) (gid : Nat) (src : Source) (kind n : Nat) (far : List FarLane) : State :=
  let keys := (far.map fun f => (f.port, f.win)).eraseDups
  keys.foldl (fun s key =>
    let mine := far.filter fun f => (f.port, f.win) == key
    let g := s.groups.at gid {}
    let t : Tx :=
      { id := s.nextTx, gid, vf := ctxVf g.ctx, window := key.2.getD 0, port := key.1, kind
        lanes := mine.map fun f => (f.lane, f.off), n, src, addrs := mine.map fun f => (f.lane, f.addr)
        data := mine.map fun f => (f.lane, f.data), cxl := key.2.isNone }
    let v := if key.2.isNone then landFill src.instr (mine.map fun f => (f.lane, f.bytes)) else []
    let s := s.updGroup gid fun g => { g with fills := g.fills ++ [{ v, tx := some t.id, mem := some src.acc }] }
    let s := { s with txs := s.txs ++ [t], nextTx := s.nextTx + 1 }
    if key.2.isSome then
      let w := (s.vf t.vf).windows.at t.window {}
      s.send (.transaction t.id w.endpt (t.lanes.map fun l => w.rbase.toNat + l.2))
    else s) s

/-! ### Performing loads -/

/-- Loads performed so far: the state, what came at once, what is logged, and what goes through a port. -/
structure Loads where
  s : State
  got : List (Fin 128 × List Byte) := []
  logs : List LogLane := []
  far : List FarLane := []

/-- Perform one lane of a load. -/
def Loads.one (r : Loads) (g : Group) (h n : Nat) (lane : Fin 128) (addr : DWord) (l : Loc) : Loads :=
  let s := r.s
  let log (c : LogWait) : LogLane := { lane, addr, data := [], wait := c }
  match g.forward l n with
  | .take bs => { r with got := r.got ++ [(lane, bs)] }
  | _ =>
    match l with
    | .scratch c o => { r with got := r.got ++ [(lane, s.scratchBytes c o n)] }
    | .fabric vf w o =>
      let p := s.winPort vf w
      if s.portUp p then { r with far := r.far ++ [{ lane, addr, port := p, win := some w, off := o }] }
      else { r with logs := r.logs ++ [log (.port p false)] }
    | .phys pa =>
      if h != 2 && (s.l1Hit g.core (pa / 16)).isSome then { r with got := r.got ++ [(lane, s.l1Bytes g.core h pa n)] }
      else match s.lineFault pa with
      | some c =>
        { r with s := s.lineRecord pa (ctxVf g.ctx) (g.ctx % 4096), logs := r.logs ++ [log (.lost c s.tick)] }
      | none =>
        match s.farPort pa with
        | some p =>
          if 64 ≤ p || s.portUp p then
            { r with far := r.far ++ [{ lane, addr, port := p, win := none, off := pa, bytes := s.l1Bytes g.core h pa n }] }
          else { r with logs := r.logs ++ [log (.port p false)] }
        | none => { r with got := r.got ++ [(lane, s.l1Bytes g.core h pa n)] }

/-- Perform the placed lanes of a load. -/
def State.loadLanes (s : State) (g : Group) (h n : Nat) (ls : List (Fin 128 × DWord × Loc)) : Loads :=
  ls.foldl (fun r x => r.one g h n x.1 x.2.1 x.2.2) { s }

/-- The physical bytes that lanes name. -/
def physOf (ls : List (Fin 128 × DWord × Loc)) (n : Nat) : List (Nat × Nat) :=
  ls.filterMap fun x => match x.2.2 with
    | .phys pa => some (pa, n)
    | _ => none

/-- The physical spans of n bytes at the places of an asynchronous unit's accesses. -/
def physLocs (ls : List Loc) (n : Nat) : List (Nat × Nat) :=
  ls.filterMap fun l => match l with
    | .phys pa => some (pa, n)
    | _ => none

/-- A load of the group: its values are on their way, faulted lanes are logged. -/
def State.loadForm (s : State) (gid : Nat) (g : Group) (src : Source) (h n : Nat) (ls : List LaneAcc) : State :=
  let s := s.noteAll g .load ls
  let r := s.loadLanes g h n (placed ls)
  let s := r.s.dropStale g.core h (physOf (placed ls) n)
  let s := if h = 0 then s.fillL1 g.core (physOf (placed ls) n) else s
  let s := s.meter (ctxVf g.ctx) (some (gid, src.acc)) (physOf (placed ls) n)
  let fill : Fill := { v := landFill src.instr r.got, mem := some src.acc }
  let s := s.updGroup gid fun g =>
    let g := { g with accSeq := g.accSeq + 1, fills := if r.got.isEmpty then g.fills else g.fills ++ [fill] }
    g.logLanes src (toLog ls (fun _ => []) ++ r.logs)
  s.sendFar gid src 0 n r.far

/-- LD (R194, R195). -/
def execLd (d a : BitVec 7) (g : BitVec 5) (z : BitVec 3) (h : BitVec 2) (w : Bool) (s : State) : Result :=
  let regs := sizeRegs z.toNat d.toNat
  issueLogged { vr := [a.toNat], gr := [g.toNat], vw := regs, trp := w } s fun gid gr ei e =>
    let n := sizeBytes z.toNat
    let ls := s.laneAccs gr e.mask (fun l => gr.addr g.toNat a.toNat l) n .load
    match worst ls with
    | some t => s.takeTrap gid ei t
    | none =>
      if (placed ls).any fun x => gr.forward x.2.2 n == .wait then s.block gid ei
      else
        let s := s.updGroup gid fun x => regs.foldl (fun x r => x.emptyV r e.mask) x
        (s.loadForm gid gr (gr.source e (.ld d a g z h w)) h.toNat n ls).finish gid ei

/-! ### The store FIFO (R192) -/

/-- The FIFO is full. -/
def Group.fifoFull (g : Group) : Bool := 32 ≤ g.fifo.length

/-- Put an entry at the end of the FIFO. -/
def State.pushFifo (s : State) (gid : Nat) (o : FifoOp) : State :=
  s.updGroup gid fun g => { g with fifo := g.fifo ++ [o] }

/-- The bytes an ST of a lane writes: low word first (R195). -/
def storeBytesOf (ws : List Word) (n : Nat) : List Byte := (ws.flatMap fun w => leBytes 4 w.toNat).take n

/-- A store of the group: its placed parts enter the FIFO, faulted lanes are logged. -/
def State.storeForm (s : State) (gid : Nat) (g : Group) (src : Source) (n : Nat) (data : Fin 128 → List Word)
    (ls : List LaneAcc) : State :=
  let s := s.noteAll g .store ls
  let parts := (placed ls).map fun x =>
    ({ lane := x.1, addr := x.2.1, loc := x.2.2, bytes := storeBytesOf (data x.1) n } : StorePart)
  s.updGroup gid fun g =>
    let g := { g with accSeq := g.accSeq + 1, fifo := g.fifo ++ [FifoOp.store src parts] }
    g.logLanes src (toLog ls data)

/-- ST (R194, R195). -/
def execSt (d a : BitVec 7) (g : BitVec 5) (z : BitVec 3) (h : BitVec 2) (w : Bool) (s : State) : Result :=
  let regs := sizeRegs z.toNat d.toNat
  issueLogged { vr := a.toNat :: regs, gr := [g.toNat], trp := w } s fun gid gr ei e =>
    let n := sizeBytes z.toNat
    let ls := s.laneAccs gr e.mask (fun l => gr.addr g.toNat a.toNat l) n .store
    match worst ls with
    | some t => s.takeTrap gid ei t
    | none =>
      if gr.fifoFull then s.block gid ei
      else (s.storeForm gid gr (gr.source e (.st d a g z h w)) n (fun l => regs.map fun r => gr.vAt r l) ls).finish gid ei

/-- A part of a store through a port. -/
def StorePart.far (s : State) (p : StorePart) : Option FarLane :=
  let data := (List.range ((p.bytes.length + 3) / 4)).map fun j =>
    BitVec.ofNat 32 (leNat ((p.bytes.drop (4 * j)).take 4))
  match p.loc with
  | .fabric vf w o => some { lane := p.lane, addr := p.addr, port := s.winPort vf w, win := some w, off := o, data }
  | _ => none

/-- The 64-byte lines that the parts of one store write whole (R422). -/
def wholeLines (ps : List StorePart) : List Nat :=
  let bytes := ps.flatMap fun p => match p.loc with
    | .phys pa => (List.range p.bytes.length).map fun i => pa + i
    | _ => []
  let lines := (bytes.map fun a => a / 64).eraseDups
  lines.filter fun k => (List.range 64).all fun i => bytes.contains (64 * k + i)

/-- The end of one part at its drain: written, refused by the line's check, or held by a port. -/
def State.drainPart (whole : List Nat) (core : Nat) (acc : State × List (StorePart × LogWait)) (p : StorePart) :
    State × List (StorePart × LogWait) :=
  let s := acc.1
  match p.loc with
  | .scratch c o => (s.updCore c fun k => k.storeScratch o p.bytes, acc.2)
  | .fabric vf w _ => if s.portUp (s.winPort vf w) then acc else (s, acc.2 ++ [(p, .port (s.winPort vf w) false)])
  | .phys pa =>
    let fault := match s.lineFault pa with
      | some .memoryUnavailable => some Cause.memoryUnavailable
      | some _ => if whole.contains (pa / 64) then none else some .integrity
      | none => none
    match fault with
    | some c => (s.lineRecord pa 0xFF 0xFFFF, acc.2 ++ [(p, .lost c s.tick)])
    | none =>
      match (s.farPort pa).filter fun q => !s.portOpen q with
      | some q => (s, acc.2 ++ [(p, .port q false)])
      | none =>
        let s := { s with mem := s.mem.writeBytes pa p.bytes }
        (s.updCore core fun k => k.storeSectors pa p.bytes, acc.2)

/-- The words a logged part carries. -/
def StorePart.words (p : StorePart) : List Word :=
  (List.range ((p.bytes.length + 3) / 4)).map fun j => BitVec.ofNat 32 (leNat ((p.bytes.drop (4 * j)).take 4))

/-- Perform the parts of a store: each written or logged, whole lines made good, fabric parts sent. -/
def State.performStore (s : State) (gid : Nat) (src : Source) (ps : List StorePart) : State :=
  let g := s.groups.at gid {}
  let whole := wholeLines ps
  let (s, logs) := ps.foldl (State.drainPart whole g.core) (s, [])
  let s := { s with badLines := s.badLines.filter fun k => !whole.contains k
                    deadLines := s.deadLines.filter fun k => !whole.contains k }
  let s := s.updGroup gid fun g =>
    g.logLanes src (logs.map fun x => { lane := x.1.lane, addr := x.1.addr, data := x.1.words, wait := x.2 })
  let n := ((ps.head?).map fun p => p.bytes.length).getD 0
  let s := s.meter (ctxVf g.ctx) none (physOf (ps.map fun p => (p.lane, p.addr, p.loc)) n)
  s.sendFar gid src 1 n
    ((ps.filterMap fun p => p.far s).filter fun f => s.portUp f.port)

/-! ### ATOM (R200, R201) -/

/-- Apply(v, x, y) of R200. -/
def aopApply (o : Nat) (v x y : DWord) : DWord :=
  let v32 : Word := v.truncate 32
  let x32 : Word := x.truncate 32
  let y32 : Word := y.truncate 32
  match o with
  | 0 => (v32 + x32).zeroExtend 64
  | 1 => v + x
  | 2 => (if x32.slt v32 then x32 else v32).zeroExtend 64
  | 3 => (if v32.slt x32 then x32 else v32).zeroExtend 64
  | 4 => (if x32.ult v32 then x32 else v32).zeroExtend 64
  | 5 => (if v32.ult x32 then x32 else v32).zeroExtend 64
  | 6 => if v.ult x then x else v
  | 7 => if x.ult v then x else v
  | 8 => (v32 &&& x32).zeroExtend 64
  | 9 => (v32 ||| x32).zeroExtend 64
  | 10 => (v32 ^^^ x32).zeroExtend 64
  | 11 => x32.zeroExtend 64
  | 12 => x
  | 13 => (if v32 = x32 then y32 else v32).zeroExtend 64
  | 14 => if v = x then y else v
  | _ => .ofNat 64 (fadd .f32 v32.toNat x32.toNat).1

/-- The operand and the cas new value of a lane (R200). -/
def Group.atomOps (g : Group) (o a : Nat) (l : Fin 128) : DWord × DWord :=
  if aopWide o then (g.vPair (a + 2) l, g.vPair (a + 4) l)
  else ((g.vAt (a + 1) l).zeroExtend 64, (g.vAt (a + 2) l).zeroExtend 64)

/-- The words an atomic lane logs. -/
def opWords (x y : DWord) : List Word :=
  [x.truncate 32, (x >>> 32).truncate 32, y.truncate 32, (y >>> 32).truncate 32]

/-- The operands logged words stand for. -/
def wordOps (ws : List Word) : DWord × DWord :=
  (ws.getD 1 0 ++ ws.getD 0 0, ws.getD 3 0 ++ ws.getD 2 0)

/-- ATOM (R200, R201). -/
def execAtom (d a : BitVec 7) (g : BitVec 5) (o : BitVec 4) (n w : Bool) (s : State) : Result :=
  let dests := if n then [] else if aopWide o.toNat then [d.toNat, d.toNat + 1] else [d.toNat]
  issueLogged { vr := atomSources o.toNat a.toNat, gr := [g.toNat], vw := dests, trp := w } s fun gid gr ei e =>
    let ls := s.laneAccs gr e.mask (fun l => gr.addr g.toNat a.toNat l) (aopBytes o.toNat) .atomic
    match worst ls with
    | some t => s.takeTrap gid ei t
    | none =>
      if gr.fifoFull then s.block gid ei
      else
        let src := gr.source e (.atom d a g o n w)
        let ops := gr.atomOps o.toNat a.toNat
        let lanes := (placed ls).map fun x =>
          ({ lane := x.1, addr := x.2.1, loc := x.2.2, x := (ops x.1).1, y := (ops x.1).2 } : AtomLane)
        let s := (s.noteAll gr .atomic ls).updGroup gid fun x =>
          let x := dests.foldl (fun x r => x.emptyV r e.mask) x
          let x := { x with accSeq := x.accSeq + 1, fifo := x.fifo ++ [FifoOp.atom src o lanes (if n then none else some d)] }
          x.logLanes src (toLog ls fun l => opWords (ops l).1 (ops l).2)
        s.finish gid ei

/-- Perform one lane of an atomic: the bytes before, or what keeps it. -/
def State.atomLane (s : State) (o core : Nat) (x : AtomLane) : State × Except LogWait (List Byte) :=
  let n := aopBytes o
  match x.loc with
  | .scratch c off =>
    let old := s.scratchBytes c off n
    let new := aopApply o (.ofNat 64 (leNat old)) x.x x.y
    (s.updCore c fun k => { k with mem := k.mem.writeBytes off (leBytes n new.toNat) }, .ok old)
  | .fabric vf w _ => (s, .error (.port (s.winPort vf w) false))
  | .phys pa =>
    match s.lineFault pa with
    | some c => (s.lineRecord pa 0xFF 0xFFFF, .error (.lost c s.tick))
    | none =>
      match (s.farPort pa).filter fun q => !s.portOpen q with
      | some q => (s, .error (.port q false))
      | none =>
        let old := s.mem.bytes pa n
        let new := aopApply o (.ofNat 64 (leNat old)) x.x x.y
        let s := { s with mem := s.mem.writeBytes pa (leBytes n new.toNat) }
        (s.updCore core fun k => k.dropSectors pa n, .ok old)

/-- The atomic performed so far. -/
structure Atoms where
  s : State
  got : List (Fin 128 × List Byte) := []
  logs : List LogLane := []
  far : List FarLane := []

/-- Perform one lane, or send it through a port. -/
def Atoms.one (o core : Nat) (r : Atoms) (x : AtomLane) : Atoms :=
  let far := match x.loc with
    | .fabric vf w off => if r.s.portUp (r.s.winPort vf w) then
        some ({ lane := x.lane, addr := x.addr, port := r.s.winPort vf w, win := some w, off
                data := opWords x.x x.y } : FarLane)
      else none
    | _ => none
  match far with
  | some f => { r with far := r.far ++ [f] }
  | none =>
    match r.s.atomLane o core x with
    | (s, .ok old) => { r with s, got := r.got ++ [(x.lane, old)] }
    | (s, .error w) => { r with s, logs := r.logs ++ [{ lane := x.lane, addr := x.addr, data := opWords x.x x.y, wait := w }] }

/-- Perform an atomic: lanes in lane order, old values on their way when it returns. -/
def State.performAtom (s : State) (gid : Nat) (src : Source) (o : Nat) (lanes : List AtomLane) (now : Bool) : State :=
  let g := s.groups.at gid {}
  let r := lanes.foldl (Atoms.one o g.core) { s }
  let v := landFill src.instr r.got
  let touched := physOf (lanes.map fun x => (x.lane, x.addr, x.loc)) (aopBytes o)
  let s := (r.s.meter (ctxVf g.ctx) (some (gid, src.acc)) touched).updGroup gid fun g =>
    let g := g.logLanes src r.logs
    if v.isEmpty || r.got.isEmpty then g
    else if now then g.fillRegs src.acc v
    else { g with fills := g.fills ++ [{ v, mem := some src.acc }] }
  s.sendFar gid src 2 (aopBytes o) r.far

/-! ### PF (R196) -/

/-- The line a lane prefetches, when nothing of it faults and it is global. -/
def State.prefetchLine (s : State) (g : Group) (l : Fin 128) (addr : DWord) : Option Nat :=
  match s.locate g l.val addr.toNat 1 .load with
  | some (.virt va) => match s.translate g.ctx va .load g.priv with
    | .ok e =>
      if (s.lineFault (e.pa va)).isNone && (cxlPort (e.pa va)).all s.portUp then some (e.pa va / 128 * 128) else none
    | _ => none
  | _ => none

/-- PF (R196): with H normal it fills L1; a lane that would fault is dropped; its requests are charged (R341). -/
def execPf (a : BitVec 7) (g : BitVec 5) (h : BitVec 2) (w : Bool) (s : State) : Result :=
  issueMem { vr := [a.toNat], gr := [g.toNat], trp := w } s fun gid gr ei e =>
    let lines := (lanesIn e.mask).filterMap fun l =>
      (s.prefetchLine gr l (gr.addr g.toNat a.toNat l)).map fun pa => (pa, 128)
    ((if h = 0 then s.fillL1 gr.core lines else s).meter (ctxVf gr.ctx) none lines).finish gid ei

end Sys2Proof.Machine
end

