-- ==== Sys2Proof/Machine/Sync.lean ====
section
/-! DEFINITION. Sys2Proof/Machine/Sync.lean: forms that wait in their entry, tagged words, copies with their range locks and
batches, FENCE, transaction barriers, network reductions and TLBI (R197 to R222, R168 to R182, R364, R365). -/
namespace Sys2Proof.Machine

/-! ### Waiting inside an instruction (R264, R267) -/

/-- A form that waits in its entry: its checks and first try, or a further test of the wait. -/
def issueWait (n : Need) (s : State) (first : Nat → Group → Nat → Entry → State)
    (again : Nat → Group → Nat → Entry → Wait → State) : Result :=
  match s.acting with
  | none => .fault .noActor
  | some (gid, g, ei, e) =>
    match e.wait with
    | some w => .next (again gid g ei e w)
    | none => issue n s first

/-- The entry begins to wait, under the SR.WDOG limit now in force (R72). -/
def State.beginWait (s : State) (gid ei : Nat) (w : Wait) : State :=
  s.updGroup gid fun g =>
    { g with accSeq := g.accSeq + 1
             entries := setAt g.entries ei fun e =>
               { e with wait := some { w with start := s.cycle, limit := g.wdog.toNat, seq := g.accSeq } } }

/-- The entry's wait changes. -/
def State.setWait (s : State) (gid ei : Nat) (w : Wait) : State :=
  s.updEntry gid ei fun e => { e with wait := some w }

/-- The bytes a wait has kept. -/
def Wait.kept (w : Wait) : List Byte := w.data.flatMap fun x => leBytes 4 x.2.toNat

/-- What a wait keeps of 64 bytes: 16 words. -/
def keepBytes (r : List Byte) : List (Nat × Word) := (List.range 16).map fun k => (k, .ofNat 32 (field r (4 * k) 4))

/-! ### Tagged scratchpad words (R197 to R199) -/

/-- The word at a scratchpad offset is full. -/
def State.tagFull (s : State) (core off : Nat) : Bool := !(s.core core).emptyTags.contains (off / 4)

/-- A place of a tagged form: lane, core, offset, address. -/
abbrev TagPlace := Nat × Nat × Nat × DWord

/-- The places of a tagged form's lanes, in lane order. -/
def tagPlaces (ls : List LaneAcc) : List TagPlace :=
  (placed ls).filterMap fun x => match x.2.2 with
    | .scratch c o => some (x.1.val, c, o, x.2.1)
    | _ => none

/-- The places a wait has still to serve. -/
def Wait.left (w : Wait) : List TagPlace := w.places.filter fun p => !w.served.getLsbD p.1

/-- Serve the lanes of an LDF in lane order, as far as the tags allow (R198). -/
def serveLdf (take : Bool) : List TagPlace → State → Wait → State × Wait
  | [], s, w => (s, w)
  | p :: rest, s, w =>
    if s.tagFull p.2.1 p.2.2.1 then
      let v : Word := .ofNat 32 (leNat (s.scratchBytes p.2.1 p.2.2.1 4))
      let w := { w with served := w.served ||| laneBit p.1, got := w.got ++ [(p.1, v)]
                        undo := if take then (p.2.1, p.2.2.1 / 4, v, true) :: w.undo else w.undo }
      let s := if take then s.updCore p.2.1 fun c => { c with emptyTags := insertNat (p.2.2.1 / 4) c.emptyTags } else s
      serveLdf take rest s w
    else (s, w)

/-- Serve the lanes of an STE in lane order, as far as the tags allow (R198). -/
def serveSte : List TagPlace → State → Wait → State × Wait
  | [], s, w => (s, w)
  | p :: rest, s, w =>
    if s.tagFull p.2.1 p.2.2.1 then (s, w)
    else
      let old : Word := .ofNat 32 (leNat (s.scratchBytes p.2.1 p.2.2.1 4))
      let new : Word := ((w.data.find? fun d => d.1 == p.1).map fun d => d.2).getD 0
      let w := { w with served := w.served ||| laneBit p.1, undo := (p.2.1, p.2.2.1 / 4, old, false) :: w.undo }
      serveSte rest (s.updCore p.2.1 fun c => c.storeScratch p.2.2.1 (leBytes 4 new.toNat)) w

/-- An LDF's test: it ends when every lane is served, or waits on. -/
def State.testLdf (s : State) (gid ei : Nat) (d : Nat) (take : Bool) (core : Nat) (w : Wait) : State :=
  let (s', w') := serveLdf take w.left s w
  if w'.left.isEmpty then
    let m := maskOfList ((List.finRange 128).filter fun l => w'.served.getLsbD l.val)
    let s := s'.updGroup gid fun g =>
      (g.setV d m fun l => ((w'.got.find? fun x => x.1 == l.val).map fun x => x.2).getD 0).fullV d m
    let s := s.finish gid ei
    if w'.places.any fun p => p.2.1 != core then s.dropL1 core else s
  else if w'.served == w.served then (s.setWait gid ei w).block gid ei
  else s'.setWait gid ei w'

/-- A live entry waits at a place of the group's issue order. -/
def Group.liveMark (g : Group) (seq : Nat) : Bool := g.entries.any fun e => e.wait.any fun w => w.seq == seq

/-- A FIFO entry that the others pass: it stands for a wait of the saved frontier (log 33). -/
def Group.passedOver (g : Group) : FifoOp → Bool
  | .mark seq | .ste seq _ => !g.liveMark seq
  | _ => false

/-- The place of the FIFO's head. -/
def Group.headPlace (g : Group) : Option Nat := g.fifo.findIdx? fun o => !g.passedOver o

/-- The FIFO's head. -/
def Group.fifoHead (g : Group) : Option FifoOp := g.headPlace.bind fun i => g.fifo[i]?

/-- Every logged access of the group is later than a place of its issue order. -/
def Group.logsAfter (g : Group) (seq : Nat) : Bool :=
  g.logOrder.all fun i => (vecGet g.oplog i none).all fun e => e.eng.isSome || seq < e.src.acc

/-- The STE or STF at a place in the FIFO is at its head, and the group's earlier accesses are performed (R170, R198). -/
def Group.releaseTurn (g : Group) (seq : Nat) (head : FifoOp → Bool) : Bool := g.fifoHead.any head && g.logsAfter seq

/-- The FIFO entry of an STE. -/
def FifoOp.isSte (seq : Nat) : FifoOp → Bool
  | .ste q _ => q == seq
  | _ => false

/-- An STE's test: its turn in the FIFO, then its words. -/
def State.testSte (s : State) (gid ei : Nat) (w : Wait) : State :=
  let (s', w') := serveSte w.left s w
  if !(s.groups.at gid {}).releaseTurn w.seq (FifoOp.isSte w.seq) then (s.setWait gid ei w).block gid ei
  else if w'.left.isEmpty then
    (s'.updGroup gid fun g => { g with fifo := g.fifo.filter fun o => !o.isSte w.seq }).finish gid ei
  else if w'.served == w.served then (s.setWait gid ei w).block gid ei
  else s'.setWait gid ei w'

/-- The first try of a tag wait, whose progress at issue stands in the entry. -/
def State.startTag (s : State) (gid ei : Nat) (w : Wait) (test : State → Wait → State) : State :=
  let s := s.beginWait gid ei w
  match (s.groups.at gid {}).entries[ei]? with
  | some e => match e.wait with
    | some w => (test s w).updEntry gid ei fun e => { e with blocked := false }
    | none => s
  | none => s

/-- LDF (R197, R198). -/
def execLdf (d a : BitVec 7) (g : BitVec 5) (h : BitVec 2) (w : Bool) (s : State) : Result :=
  let take := h == 1
  match s.acting with
  | none => .fault .noActor
  | some (gid, gr, ei, e) =>
    match e.wait with
    | some wt => .next (s.testLdf gid ei d.toNat take gr.core wt)
    | none =>
      issueLogged { vr := [a.toNat], gr := [g.toNat], vw := [d.toNat], trp := w } s fun gid gr ei e =>
        let ls := s.laneAccs gr e.mask (fun l => gr.addr g.toNat a.toNat l) 4 .tagLoad
        match worst ls with
        | some t => s.takeTrap gid ei t
        | none =>
          if (placed ls).any fun x => gr.forward x.2.2 4 != .none then s.block gid ei
          else
            let s := s.updGroup gid fun x => x.emptyV d.toNat e.mask
            s.startTag gid ei { ref := gr.accSeq, phase := 7, instr := .ldf d a g h w, places := tagPlaces ls }
              fun s w => s.testLdf gid ei d.toNat take gr.core w

/-- The parts of a tagged store's words. -/
def tagParts (ls : List LaneAcc) (v : Fin 128 → Word) : List StorePart :=
  (placed ls).map fun x => { lane := x.1, addr := x.2.1, loc := x.2.2, bytes := leBytes 4 (v x.1).toNat }

/-- Every earlier access of the group is performed (R170). -/
def Group.storesDone (g : Group) : Bool := g.fifo.isEmpty && g.logOrder.isEmpty

/-- STE (R192, R197, R198): it takes its place in the FIFO, and its release drains the group's earlier stores first. -/
def execSte (d a : BitVec 7) (g : BitVec 5) (w : Bool) (s : State) : Result :=
  match s.acting with
  | none => .fault .noActor
  | some (gid, _, ei, e) =>
    match e.wait with
    | some wt => .next (s.testSte gid ei wt)
    | none =>
      issueLogged { vr := [a.toNat, d.toNat], gr := [g.toNat], trp := w } s fun gid gr ei e =>
        let ls := s.laneAccs gr e.mask (fun l => gr.addr g.toNat a.toNat l) 4 .tagStore
        match worst ls with
        | some t => s.takeTrap gid ei t
        | none =>
          if 32 ≤ gr.fifo.length then s.block gid ei
          else
            (s.pushFifo gid (.ste gr.accSeq (tagParts ls fun l => gr.vAt d.toNat l))).startTag gid ei
              { ref := gr.accSeq, phase := 7, instr := .ste d a g w, places := tagPlaces ls
                data := (lanesIn e.mask).map fun l => (l.val, gr.vAt d.toNat l) }
              fun s w => s.testSte gid ei w

/-- STF (R197, R198): it never waits on a tag. -/
def execStf (d a : BitVec 7) (g : BitVec 5) (w : Bool) (s : State) : Result :=
  issueLogged { vr := [a.toNat, d.toNat], gr := [g.toNat], trp := w } s fun gid gr ei e =>
    let ls := s.laneAccs gr e.mask (fun l => gr.addr g.toNat a.toNat l) 4 .tagStore
    match worst ls with
    | some t => s.takeTrap gid ei t
    | none =>
      if gr.fifoFull then s.block gid ei
      else
        let src := gr.source e (.stf d a g w)
        ((s.updGroup gid fun x => { x with accSeq := x.accSeq + 1 }).pushFifo gid
          (.stf src (tagParts ls fun l => gr.vAt d.toNat l))).finish gid ei

/-- An STF is performed at its place in the FIFO (R198). -/
def State.performStf (s : State) (ps : List StorePart) : State :=
  ps.foldl (fun s p => match p.loc with
    | .scratch c o => s.updCore c fun k => k.storeScratch o p.bytes
    | _ => s) s

/-! ### The range-lock table (R202, R203) -/

/-- The space's place in R202's order. -/
def Space.order : Space → Nat
  | .scratch _ => 0
  | .local _ => 1
  | .fabric _ => 2

/-- A range of an operation: the core whose table checks its space, the space, first and last byte. -/
abbrev Span := Nat × Space × Nat × Nat

/-- Widen the span of a space that is there already, or add it. -/
def addSpan (x : Span) : List Span → List Span
  | [] => [x]
  | y :: r =>
    if y.1 == x.1 && y.2.1 == x.2.1 then (y.1, y.2.1, min y.2.2.1 x.2.2.1, max y.2.2.2 x.2.2.2) :: r
    else if x.2.1.order < y.2.1.order then x :: y :: r
    else y :: addSpan x r

/-- One span for each space. -/
def spans (xs : List Span) : List Span := xs.foldl (fun acc x => addSpan x acc) []

/-- Pair source and destination ranges in order (R202). -/
def pairSpans (o : LockOwner) (srcs dsts : List Span) : List Lock :=
  (List.range (max srcs.length dsts.length)).map fun i =>
    { owner := o, src := (srcs[i]?).map fun a => a.2, dst := (dsts[i]?).map fun b => b.2 }

/-- The entries an operation of a core takes, by table; the core's own table takes one at least (R180, R202). -/
def lockPlan (core : Nat) (o : LockOwner) (srcs dsts : List Span) : List (Nat × List Lock) :=
  let ss := spans srcs
  let ds := spans dsts
  let tables := (core :: (ss ++ ds).map fun x => x.1).eraseDups
  tables.map fun t =>
    let ls := pairSpans o (ss.filter fun x => x.1 == t) (ds.filter fun x => x.1 == t)
    (t, if ls.isEmpty then [{ owner := o }] else ls)

/-- Two optional ranges overlap in one space. -/
def spanMeet (a b : Option (Space × Nat × Nat)) : Bool :=
  match b with
  | some (sp, r) => overlapO a sp r
  | none => false

/-- An entry keeps a new one waiting (R203). -/
def Lock.blocks (old new : Lock) : Bool :=
  spanMeet old.dst new.src || spanMeet old.dst new.dst || spanMeet old.src new.dst

/-- Entries of a core's table that live entries of running groups asked for before a step, waiting at issue (R203). -/
def State.asksBefore (s : State) (core t : Nat) : Nat :=
  s.groups.foldl (fun n g =>
    if !s.ctxLive g.2.ctx || g.2.halted then n
    else (g.2.entries.zipIdx.filter fun x => isLive g.2.entries x.2 x.1).foldl (fun n x => match x.1.queued with
      | some q => if q.since < t then q.asks.foldl (fun n a => if a.1 == core then n + a.2 else n) n else n
      | none => n) n) 0

/-- Every table has room, behind the operations that waited before step t, and nothing that overlaps (R203). -/
def State.canLock (s : State) (t : Nat) (plan : List (Nat × List Lock)) : Bool :=
  plan.all fun p =>
    let have_ := (s.core p.1).locks
    have_.length + p.2.length + s.asksBefore p.1 t ≤ 64 && have_.all fun o => p.2.all fun n => !o.blocks n

/-- What a plan asks of each table. -/
def planAsks (plan : List (Nat × List Lock)) : List (Nat × Nat) := plan.map fun p => (p.1, p.2.length)

/-- Take the entries. -/
def State.takeLocks (s : State) (plan : List (Nat × List Lock)) : State :=
  plan.foldl (fun s p => s.updCore p.1 fun c => { c with locks := c.locks ++ p.2 }) s

/-- Free an operation's entries in every table. -/
def State.freeLocks (s : State) (o : LockOwner) : State :=
  { s with cores := s.cores.mapAll fun _ c => { c with locks := c.locks.filter fun l => l.owner != o } }

/-- The span n bytes at a place take. -/
def Group.span (g : Group) (w : Where) (n : Nat) : Span := lockPlace g n w

/-! ### Barriers (R213 to R219) -/

/-- A barrier's scope, seen from its core, holds a core (R213). A barrier belongs to a core and no group, so one of scope .grp
holds every group of its core, as .core does (the model's choice; log 63). -/
def scopeHolds (scope from_ core : Nat) : Bool :=
  match scope with
  | 0 | 1 => from_ == core
  | 2 => from_ / 8 == core / 8
  | 3 => from_ / 64 == core / 64
  | _ => true

/-- The barrier a handle names, for a group: its core and index. -/
def State.barrierOf (s : State) (g : Group) (h : DWord) : Option (Nat × Nat × Barrier) :=
  let n := h.toNat
  if bits n 47 32 != 0 || bits n 15 8 != 0 then none
  else match (s.vf (ctxVf g.ctx)).deviceCore (bits n 31 16) with
  | none => none
  | some core =>
    match (s.core core).barriers.find (n % 256) with
    | none => none
    | some b =>
      if b.live && b.ctx == g.ctx && b.gen == bits n 63 48 && scopeHolds b.scope.toNat core g.core then
        some (core, n % 256, b)
      else none

/-- The test of R214: arrivals beyond E count toward the next phase. -/
def Barrier.test (b : Barrier) : Barrier :=
  if b.e ≤ b.a && b.tx == 0 && b.e != 0 then { b with done := b.done + .ofNat 32 (b.a / b.e), a := b.a % b.e } else b

/-- Change a barrier. -/
def State.updBarrier (s : State) (core i : Nat) (f : Barrier → Barrier) : State :=
  s.updCore core fun c => { c with barriers := c.barriers.upd i f }

/-- Arrive at a barrier, adding bytes (R217); a handle that names no barrier any more is discarded. -/
def State.arrive (s : State) (g : Group) (h : DWord) (tx : Nat) : State :=
  match s.barrierOf g h with
  | some (core, i, _) => s.updBarrier core i fun b => Barrier.test { b with tx := b.tx + tx, a := b.a + 1 }
  | none => s

/-- Count a copied lane's bytes down (R206, R216). -/
def State.countDown (s : State) (g : Group) (h : DWord) (n : Nat) : State :=
  match s.barrierOf g h with
  | some (core, i, _) => s.updBarrier core i fun b => Barrier.test { b with tx := b.tx - n }
  | none => s

/-- A handle's violation (R213). -/
def badHandle : TrapInfo := { cause := .accessViolation }

/-- HPOL no longer grants the scope of a barrier (R339). -/
def State.barDenied (s : State) (g : Group) (b : Barrier) : Bool := !(s.vf (ctxVf g.ctx)).grants b.scope.toNat

/-- BARA (R215). -/
def execBara (d a : BitVec 6) (q : BitVec 4) (sc : BitVec 3) (w : Bool) (s : State) : Result :=
  issue { gr := [a.toNat], gw := [d.toNat], qw := [q.toNat], trp := w } s fun gid g ei _ =>
    let e := (g.gAt a.toNat).toNat
    if !(s.vf (ctxVf g.ctx)).grants sc.toNat then s.takeTrap gid ei { cause := .scopeDenied }
    else if e = 0 || 65536 ≤ e then s.takeTrap gid ei { cause := .accessViolation }
    else
      let pool := (s.core g.core).barriers
      let free := (List.range 256).find? fun i => !(pool.at i {}).live
      let s := s.updGroup gid fun x => (x.emptyG d.toNat).emptyQ q.toNat
      let land (s : State) (h : DWord) (bad : Bool) : State :=
        (s.updGroup gid fun x => { x with fills := x.fills ++ [{ g := [(d, h)], q := [(q, bad)] }] }).finish gid ei
      match free with
      | none => land s 0 true
      | some i =>
        let gen := (pool.at i {}).gen
        let b : Barrier := { gen, live := true, ctx := g.ctx, e, scope := sc, refs := 1 }
        let s := s.updCore g.core fun c => { c with barriers := c.barriers.put i b }
        let n := (s.vf (ctxVf g.ctx)).coreNumber g.core
        land s (.ofNat 64 (gen * 2 ^ 48 + n * 2 ^ 16 + i)) false

/-- An arrival of the group at a barrier has not reached it; BARREF and BARDROP act behind it, in issue order (R216). -/
def Group.arriving (g : Group) (h : DWord) : Bool :=
  g.fifo.any fun o => match o with
    | .arrive k _ _ => k == h
    | _ => false

/-- BARREF (R216). -/
def execBarref (a : BitVec 6) (w : Bool) (s : State) : Result :=
  issue { gr := [a.toNat], trp := w } s fun gid g ei _ =>
    match s.barrierOf g (g.gAt a.toNat) with
    | none => s.takeTrap gid ei badHandle
    | some (core, i, b) =>
      if s.barDenied g b then s.takeTrap gid ei { cause := .scopeDenied }
      else if g.arriving (g.gAt a.toNat) then s.block gid ei
      else if 65535 ≤ b.refs then s.takeTrap gid ei badHandle
      else (s.updBarrier core i fun b => { b with refs := b.refs + 1 }).finish gid ei

/-- BARDROP (R216). -/
def execBardrop (a : BitVec 6) (w : Bool) (s : State) : Result :=
  issue { gr := [a.toNat], trp := w } s fun gid g ei _ =>
    match s.barrierOf g (g.gAt a.toNat) with
    | none => s.takeTrap gid ei badHandle
    | some (core, i, b) =>
      if s.barDenied g b then s.takeTrap gid ei { cause := .scopeDenied }
      else if g.arriving (g.gAt a.toNat) then s.block gid ei
      else (s.updBarrier core i fun b => if b.refs ≤ 1 then b.drop else { b with refs := b.refs - 1 }).finish gid ei

/-- BARARR (R217). -/
def execBararr (a rb : BitVec 6) (x r w : Bool) (s : State) : Result :=
  issueMem { gr := a.toNat :: (if x then [rb.toNat] else []), trp := w } s fun gid g ei _ =>
    match s.barrierOf g (g.gAt a.toNat) with
    | none => s.takeTrap gid ei badHandle
    | some (_, _, b) =>
      if s.barDenied g b then s.takeTrap gid ei { cause := .scopeDenied }
      else if g.fifoFull then s.block gid ei
      else
        let tx := if x then (g.gAt rb.toNat).toNat % 2 ^ 32 else 0
        (s.pushFifo gid (.arrive (g.gAt a.toNat) tx r)).finish gid ei

/-- Phase k of a barrier has completed (R218). -/
def Barrier.passed (b : Barrier) (k : Word) : Bool := 2 ^ 31 ≤ (k - b.done).toNat

/-- BARWAIT's test: it returns and acquires, traps on a barrier that has gone, or waits on. -/
def State.testBarwait (s : State) (gid ei : Nat) (g : Group) (h : DWord) (k : Word) (stay : State) : State :=
  match s.barrierOf g h with
  | none => s.takeTrap gid ei badHandle
  | some (core, _, b) =>
    if s.barDenied g b then s.takeTrap gid ei { cause := .scopeDenied }
    else if core != g.core then s.takeTrap gid ei badHandle
    else if b.passed k then (s.finish gid ei).acquire g.core b.scope.toNat
    else stay

/-- BARWAIT (R218). -/
def execBarwait (a b : BitVec 6) (w : Bool) (s : State) : Result :=
  issueWait { gr := [a.toNat, b.toNat], trp := w } s
    (fun gid g ei _ =>
      let h := g.gAt a.toNat
      let k := g.gAt b.toNat
      s.testBarwait gid ei g h (k.truncate 32)
        (s.beginWait gid ei { instr := .barwait a b w, x := h, y := k }))
    (fun gid g ei _ w => s.testBarwait gid ei g w.x (w.y.truncate 32) (s.block gid ei))

/-! ### CPY (R205 to R208) -/

/-- The check of one copy address, without stage 1 (R206). -/
def State.copyEnd (s : State) (g : Group) (l : Fin 128) (addr : DWord) (n : Nat) (k : Acc) : LaneAcc :=
  ⟨l, addr, match s.locate g l.val addr.toNat n k with
    | none => .bad 2 .accessViolation
    | some _ => if addr.toNat % n != 0 then .bad 3 .misaligned else .loc (.phys 0) none⟩

/-- The trap CPY takes: the lanes', with the handle's violation ahead of MISALIGNED (R369). -/
def copyTrap (ls : List LaneAcc) (handleOk : Bool) : Option TrapInfo :=
  match worst ls with
  | some t => if t.cause == .accessViolation || handleOk then some t else some badHandle
  | none => if handleOk then none else some badHandle

/-- The spans that copy addresses name. -/
def State.copySpans (s : State) (g : Group) (xs : List (Fin 128 × DWord)) (n : Nat) (k : Acc) : List Span :=
  xs.filterMap fun x => (s.locate g x.1.val x.2.toNat n k).map fun w => g.span w n

/-- Whether a copy-queue entry is to be had: a shared one, or the group's own (R207). -/
def State.copySlot (s : State) (gid : Nat) (core : Nat) : Option Bool :=
  let copies := (s.core core).copies
  if (copies.filter fun c => c.2.shared).length < 128 - (s.resident core).length then some true
  else if copies.any fun c => c.2.gid == gid && !c.2.shared then none
  else some false

/-- CPY (R205, R206). -/
def execCpy (d a : BitVec 7) (g : BitVec 5) (z : BitVec 2) (t w : Bool) (s : State) : Result :=
  let n := 4 * 2 ^ z.toNat
  issueMem { vr := [a.toNat, d.toNat], gr := [g.toNat, g.toNat + 1] ++ (if t then [g.toNat + 2] else []), trp := w
             roles := [.copy, .any] } s fun gid gr ei e =>
    let src := (lanesIn e.mask).map fun l => (l, gr.addr g.toNat a.toNat l)
    let dst := (lanesIn e.mask).map fun l => (l, gr.addr (g.toNat + 1) d.toNat l)
    let ends := (lanesIn e.mask).flatMap fun l =>
      [s.copyEnd gr l (gr.addr g.toNat a.toNat l) n .copyRead, s.copyEnd gr l (gr.addr (g.toNat + 1) d.toNat l) n .copyWrite]
    let h := gr.gAt (g.toNat + 2)
    match copyTrap ends (!t || (s.barrierOf gr h).isSome) with
    | some tr => s.takeTrap gid ei tr
    | none =>
      let id := (s.core gr.core).nextCopy
      let owner := LockOwner.copy gid id
      let plan := lockPlan gr.core owner (s.copySpans gr src n .copyRead) (s.copySpans gr dst n .copyWrite)
      match s.copySlot gid gr.core with
      | none => s.block gid ei
      | some shared =>
        if gr.fifoFull then s.block gid ei
        else if !s.canLock (s.turnOf e) plan then s.queueAt gid ei (planAsks plan)
        else
          let op : CopyOp :=
            { gid, batch := gr.batch, lev := gr.priv, shared, n, bar := if t then some h else none
              lanes := (src.zip dst).map fun x => (x.1.1, x.1.2, x.2.2) }
          let s := (s.takeLocks plan).updCore gr.core fun c =>
            { c with copies := c.copies ++ [(id, op)], nextCopy := id + 1 }
          (s.pushFifo gid (.copy id)).finish gid ei

/-! ### Accesses of copies, tasks and engines (R208, R354) -/

/-- The end of one access of an asynchronous operation: its place, a failure, a page or a port to wait for. -/
inductive AsyncEnd where
  | loc (l : Loc) (tlb : Option TlbEntry)
  | bad (c : Cause)
  | held (h : Held) (off : Nat) (table : Bool) (va : Nat)
  | port (p : Nat)
  deriving DecidableEq, Repr

/-- A port's part in it. -/
def State.portEnd (s : State) (p : Nat) (ok : AsyncEnd) : AsyncEnd :=
  if s.portOpen p then ok else if (s.ports.at p {}).lost then .bad .memoryUnavailable else .port p

/-- The end of an access to a virtual address of a context; pages whose requests failed fail it. -/
def State.asyncVirt (s : State) (ctx va : Nat) (k : Acc) (lev : Priv) (failed : List (Nat × Cause)) : AsyncEnd :=
  match s.translate ctx va k lev with
  | .cause c => .bad c
  | .lost c _ => .bad c
  | .miss h table off =>
    match failed.find? fun f => f.1 == h.page with
    | some f => .bad f.2
    | none => .held h off table va
  | .ok e =>
    let pa := e.pa va
    match if k == .copyRead then s.lineFault pa else (s.lineFault pa).filter (· == .memoryUnavailable) with
    | some c => .bad c
    | none => match s.farPort pa with
      | some p => s.portEnd p (.loc (.phys pa) (some e))
      | none => .loc (.phys pa) (some e)

/-- The end of an access at an address of a group. -/
def State.asyncEnd (s : State) (g : Group) (lane addr n : Nat) (k : Acc) (lev : Priv) (failed : List (Nat × Cause)) :
    AsyncEnd :=
  match s.locate g lane addr n k with
  | none => .bad .accessViolation
  | some (.scratch c o) => .loc (.scratch c o) none
  | some (.fabric w o) => s.portEnd (s.winPort (ctxVf g.ctx) w) (.loc (.fabric (ctxVf g.ctx) w o) none)
  | some (.virt va) => s.asyncVirt g.ctx va k lev failed

/-- The n bytes at a place, as they stand when the operation performs the read: an engine whose issuing group made no FENCE with
ENG = 1 may read older data of another group's store (R152, R179), which the model never gives (log 10); a far device's are
what it sends (log 14). -/
def State.asyncBytes (s : State) (l : Loc) (n : Nat) : List Byte :=
  match l with
  | .phys pa => s.mem.bytes pa n
  | .scratch c o => s.scratchBytes c o n
  | .fabric _ _ o => (List.range n).map fun i => Config.farByte s.tick (o + i)

/-- Write bytes at a place for an operation of a core, which keeps no L1 sector of them (R190). -/
def State.asyncWrite (s : State) (core : Nat) (l : Loc) (bs : List Byte) : State :=
  match l with
  | .phys pa => { s with mem := s.mem.writeBytes pa bs }.updCore core fun c => c.dropSectors pa bs.length
  | .scratch c o => s.updCore c fun k => k.storeScratch o bs
  | .fabric v w o =>
    let t := (s.vf v).windows.at w {}
    s.send (.farWrite t.endpt (t.rbase.toNat + o) bs)

/-- Hold every line written whole good again (R422). -/
def State.freshLines (s : State) (lines : List Nat) : State :=
  { s with badLines := s.badLines.filter fun k => !lines.contains k
           deadLines := s.deadLines.filter fun k => !lines.contains k }

/-- A lane of a copy with the ends of its two accesses. -/
structure CopyLane where
  lane : Fin 128
  src : DWord
  dst : DWord
  from_ : AsyncEnd
  into : AsyncEnd

/-- What keeps a copy waiting, if anything: a page not there yet, or a port. -/
def copyHeld (ls : List CopyLane) : Option AsyncEnd :=
  ls.findSome? fun l => match l.from_ with
    | .held h o t v => some (.held h o t v)
    | .port p => some (.port p)
    | _ => match l.into with
      | .held h o t v => some (.held h o t v)
      | .port p => some (.port p)
      | _ => none

/-- The failure of a lane, at its failing address. -/
def CopyLane.failure (s : State) (whole : List Nat) (l : CopyLane) : Option (Cause × DWord) :=
  match l.from_, l.into with
  | .bad c, _ => some (c, l.src)
  | _, .bad c => some (c, l.dst)
  | _, .loc (.phys pa) _ => if whole.contains (pa / 64) then none else (s.lineFault pa).map fun _ => (.integrity, l.dst)
  | _, _ => none

/-- The places of a lane that has both. -/
def CopyLane.locs (l : CopyLane) : List Loc :=
  match l.from_, l.into with
  | .loc a _, .loc b _ => [a, b]
  | _, _ => []

/-- Batches that have finished leave the list of sealed ones, in order (R209). -/
def State.pruneBatches (s : State) (gid : Nat) : State :=
  s.updGroup gid fun g =>
    { g with sealedBatches := g.sealedBatches.dropWhile fun b =>
        !((s.core g.core).copies.any fun c => c.2.gid == gid && c.2.batch == b) }

/-- Perform a copy whose accesses all have their ends: reads, writes in lane order, countdowns, its batch (R206, R208). All of
its units move at one instant, where in a race with a core that is not checked each 16-byte unit may be old or new (R180;
log 10). -/
def State.landCopy (s : State) (core id : Nat) (c : CopyOp) (g : Group) (ls : List CopyLane) : State :=
  let parts := ls.filterMap fun l => match l.from_, l.into with
    | .loc a _, .loc b _ => some ({ lane := l.lane, addr := l.dst, loc := b, bytes := s.asyncBytes a c.n } : StorePart)
    | _, _ => none
  let whole := wholeLines parts
  let fails := (ls.filterMap fun l => l.failure s whole).eraseDups
  let bad (p : StorePart) : Bool := match p.loc with
    | .phys pa => !whole.contains (pa / 64) && (s.lineFault pa).isSome
    | _ => false
  let kept (p : StorePart) : Bool := bad p || (!fails.isEmpty && !Config.racedNew s.tick (p.addr.toNat / 16))
  let written := parts.filter fun p => !kept p
  let s := written.foldl (fun s p => s.asyncWrite core p.loc p.bytes) s
  let s := s.freshLines (wholeLines written)
  let s := s.meter (ctxVf g.ctx) none (physLocs (ls.flatMap CopyLane.locs) c.n)
  let s := match c.bar with
    | some h => ls.foldl (fun (s : State) _ => s.countDown g h c.n) s
    | none => s
  let s := s.freeLocks (.copy c.gid id)
  let s := s.updCore core fun k => { k with copies := k.copies.filter fun x => x.1 != id }
  let s := s.updGroup c.gid fun (g : Group) =>
    { g with batchFails := g.batchFails ++ fails.map fun f => { batch := c.batch, cause := f.1, addr := f.2, at_ := s.tick } }
  s.pruneBatches c.gid

/-- The port an end of an access goes through, and its window. -/
def State.endPort (s : State) : AsyncEnd → Option (Nat × Option Nat)
  | .loc (.fabric vf w _) _ => some (s.winPort vf w, some w)
  | .loc (.phys pa) _ => (cxlPort pa).map fun p => (p, none)
  | _ => none

/-- The end of an access of a copy: one that goes through a port has failed where its transaction has (R361, R381). -/
def State.copyAcc (s : State) (g : Group) (c : CopyOp) (lane : Nat) (addr : DWord) (k : Acc) : AsyncEnd :=
  let e := s.asyncEnd g lane addr.toNat c.n k c.lev c.failed
  match c.far with
  | some f => if (s.endPort e).isSome then .bad f else e
  | none => e

/-- A copy's accesses go out through a port: its transaction, which a later step completes (R361, R381). -/
def State.sendCopy (s : State) (core id : Nat) (c : CopyOp) (g : Group) (p : Nat) (w : Option Nat) : State :=
  let t : Tx := { id := s.nextTx, gid := c.gid, vf := ctxVf g.ctx, window := w.getD 0, port := p, kind := 1, lanes := []
                  cxl := w.isNone, retried := c.timed, copy := some (core, id) }
  { s with txs := s.txs ++ [t], nextTx := s.nextTx + 1 }.updCore core fun k =>
    { k with copies := KeyMap.upd k.copies id fun c => { c with tx := some t.id } }

/-- COPY_PERFORMED: copy `id` of a core, once it has left the store FIFO (R206, R208). -/
def State.performCopy (s : State) (core id : Nat) : State :=
  match KeyMap.find (s.core core).copies id with
  | none => s
  | some c =>
    let g := s.groups.at c.gid {}
    if !c.ready || c.wait.isSome then s
    else
      let ls := c.lanes.map fun l =>
        ({ lane := l.1, src := l.2.1, dst := l.2.2
           from_ := s.copyAcc g c l.1.val l.2.1 .copyRead, into := s.copyAcc g c l.1.val l.2.2 .copyWrite } : CopyLane)
      match copyHeld ls with
      | some (.held h off table va) =>
        let off := ls.foldl (fun n l => match l.from_, l.into with
          | .held k o t _, _ => if k == h && t == table then min n o else n
          | _, .held k o t _ => if k == h && t == table then min n o else n
          | _, _ => n) off
        let kind := if ls.any fun l => l.from_ == .held h off table va then 5 else 6
        (s.requestFor h g.ctx core va off table kind).updCore core fun k =>
          { k with copies := KeyMap.upd k.copies id fun c => { c with held := some h } }
      | some _ => s
      | none =>
        match c.tx, ls.findSome? fun l => (s.endPort l.from_).or (s.endPort l.into) with
        | none, some (p, w) => s.sendCopy core id c g p w
        | _, _ => { s with txs := s.txs.filter fun t => c.tx != some t.id }.landCopy core id c g ls

/-- A copy can be performed now or has news: it left the FIFO and waits for no page, port or window. -/
def CopyOp.due (c : CopyOp) : Bool := c.ready && c.held.isNone && c.wait.isNone

/-! ### Batches (R209, R210) -/

/-- CPYSEAL (R209). -/
def execCpyseal (w : Bool) (s : State) : Result :=
  issue { roles := [.copy, .any], trp := w } s fun gid g ei _ =>
    if 64 ≤ g.sealedBatches.length then s.block gid ei
    else
      let s := s.updGroup gid fun g => { g with sealedBatches := g.sealedBatches ++ [g.batch], batch := g.batch + 1 }
      (s.pruneBatches gid).finish gid ei

/-- The oldest failure of a sealed batch that has finished, with the failures left (R210). -/
def Group.coveredFail (g : Group) : Option (CopyFail × List CopyFail) :=
  (g.batchFails.find? fun f => f.batch != g.batch && !g.sealedBatches.contains f.batch).map fun f =>
    (f, g.batchFails.erase f)

/-- CPYWAIT's test. -/
def State.testCpywait (s : State) (gid ei : Nat) (g : Group) (n : Nat) (stay : State) : State :=
  if n < g.sealedBatches.length then stay
  else match g.coveredFail with
  | some (f, rest) =>
    (s.updGroup gid fun g => { g with batchFails := rest }).takeTrap gid ei { cause := f.cause, addr := f.addr }
  | none => s.finish gid ei

/-- CPYWAIT (R210). -/
def execCpywait (n : BitVec 6) (w : Bool) (s : State) : Result :=
  issueWait { roles := [.copy, .any], trp := w } s
    (fun gid g ei _ => s.testCpywait gid ei g n.toNat (s.beginWait gid ei { instr := .cpywait n w }))
    (fun gid g ei _ _ => s.testCpywait gid ei g n.toNat (s.block gid ei))

/-! ### FENCE (R168 to R170, R211, R212) -/

/-- An access of the group that synchronisation at a scope orders is out (R169). -/
def State.farOut (s : State) (g : Group) (scope : Nat) : Bool :=
  g.fills.any fun f => f.tx.any fun id => s.txs.any fun t => t.id == id && s.txScope t ≤ scope

/-- A wait that an acquire counts as an earlier access (R170). -/
def acquireWaits : Instr → Bool
  | .ldf _ _ _ _ _ | .barwait _ _ _ => true
  | _ => false

/-- What an acquire waits for: values of earlier loads, atomics, LDF, BARWAIT, QPOP and NRWAIT, and the operand log (R170). -/
def State.acquireReady (s : State) (gid : Nat) (g : Group) (seq : Nat) : Bool :=
  (g.fills.all fun f => f.mem.isNone) && g.logOrder.isEmpty &&
    (g.fifo.all fun o => match o with
      | .atom _ _ _ (some _) => false
      | _ => true) &&
    (g.entries.all fun e => match e.wait with
      | some w => !(acquireWaits w.instr && w.seq < seq)
      | none => true) &&
    (s.queues.all fun q => q.2.waiters.all fun w => !(w.gid == gid && w.seq < seq)) &&
    s.nrwaits.all fun w => !(w.gid == gid && w.seq < seq)

/-- What a release waits for: every earlier access performed at the scope (R170). -/
def State.releaseReady (s : State) (g : Group) (scope : Nat) : Bool := g.storesDone && !s.farOut g scope

/-- A FENCE of an order may complete: 0 acq, 1 rel, 2 acqrel, 3 sc. -/
def State.fenceReady (s : State) (gid : Nat) (g : Group) (scope ord seq : Nat) : Bool :=
  (ord = 1 || s.acquireReady gid g seq) && (ord = 0 || s.releaseReady g scope)

/-- FENCE's completion. -/
def State.endFence (s : State) (gid ei : Nat) (g : Group) (scope ord : Nat) : State :=
  let s := s.finish gid ei
  if ord = 1 then s else s.acquire g.core scope

/-- FENCE (R211, R212). -/
def execFence (sc : BitVec 3) (o : BitVec 2) (eng : Bool) (s : State) : Result :=
  issueWait {} s
    (fun gid g ei _ =>
      if !(s.vf (ctxVf g.ctx)).grants sc.toNat then s.takeTrap gid ei { cause := .scopeDenied }
      else if s.fenceReady gid g sc.toNat o.toNat g.accSeq then s.endFence gid ei g sc.toNat o.toNat
      else s.beginWait gid ei { instr := .fence sc o eng })
    (fun gid g ei _ w =>
      if s.fenceReady gid g sc.toNat o.toNat w.seq then s.endFence gid ei g sc.toNat o.toNat else s.block gid ei)

/-! ### NRED and NRWAIT (R220 to R222) -/

/-- The descriptor's slot of a partition: its key; none when res0 or SLICE is bad. -/
def State.slotKey (s : State) (ctx : Nat) (d : DWord) : Option Nat :=
  let n := d.toNat
  if bits n 63 48 != 0 || bits n 15 14 != 0 || bits n 7 6 != 0 then none
  else ((s.vf (ctxVf ctx)).slices2[bits n 13 8]?).map fun sl => 64 * sl + bits n 5 0

/-- COUNT of a descriptor. -/
def descCount (d : DWord) : Nat := bits d.toNat 47 32
/-- RANK of a descriptor. -/
def descRank (d : DWord) : Nat := bits d.toNat 31 16

/-- NRED (R220, R221). -/
def execNred (a b : BitVec 6) (o : BitVec 3) (w : Bool) (s : State) : Result :=
  issueMem { gr := [a.toNat, b.toNat], trp := w } s fun gid g ei _ =>
    let d := g.gAt a.toNat
    if (s.slotKey g.ctx d).isNone || descCount d = 0 || descCount d ≤ descRank d then
      s.takeTrap gid ei { cause := .accessViolation }
    else if g.fifoFull then s.block gid ei
    else (s.pushFifo gid (.nred d o (g.gAt b.toNat))).finish gid ei

/-- Combine of R221. -/
def nredCombine (op : Nat) (a b : DWord) : DWord :=
  match op with
  | 0 => a + b
  | 1 => .ofNat 64 (fadd .f64 a.toNat b.toNat).1
  | 2 => .ofNat 64 (fadd .f32 (a.toNat % 2 ^ 32) (b.toNat % 2 ^ 32)).1
  | 3 => if b.slt a then b else a
  | 4 => if a.slt b then b else a
  | 5 => if b.ult a then b else a
  | 6 => if a.ult b then b else a
  | _ => a ||| b

/-- Insert a contribution by rank. -/
def insertRankV (r : Nat) (x : DWord) : List (Nat × DWord) → List (Nat × DWord)
  | [] => [(r, x)]
  | (k, y) :: t => if r < k then (r, x) :: (k, y) :: t else (k, y) :: insertRankV r x t

/-- The result of a full round, in increasing rank (R221). -/
def nredResult (op : Nat) : List (Nat × DWord) → DWord
  | [] => 0
  | (_, x) :: t => t.foldl (fun acc y => nredCombine op acc y.2) x

/-- A slot after a contribution of a context. -/
def RedSlot.add (t : RedSlot) (op : BitVec 3) (count rank : Nat) (x : DWord) : RedSlot :=
  if t.op != op || t.count != count || t.given.any fun y => y.1 == rank then { t with result := some (false, 0) }
  else
    let given := insertRankV rank x t.given
    { t with given, result := if given.length = t.count then some (true, nredResult op.toNat given) else none }

/-- The slot takes a contribution of the context now: it is idle, or the context's round is open (R221). -/
def State.slotTakes (s : State) (key ctx : Nat) : Bool :=
  match s.slots.find key with
  | none => true
  | some t => t.ctx == ctx && t.result.isNone

/-- Fill a waiting NRWAIT with a slot's result. -/
def State.fillNrwait (s : State) (gid : Nat) (d : BitVec 6) (q : BitVec 4) (r : Bool × DWord) : State :=
  s.updGroup gid fun g => { g with fills := g.fills ++ [{ g := [(d, r.2)], q := [(q, r.1)] }] }

/-- Count one delivery; the last makes the slot idle (R222). -/
def State.delivered (s : State) (key : Nat) (t : RedSlot) : State :=
  if t.delivered + 1 = t.count then { s with slots := s.slots.del key }
  else { s with slots := s.slots.put key { t with delivered := t.delivered + 1 } }

/-- Deliver a completed round to the NRWAITs that wait on it, in order (R222). -/
def State.deliver (key : Nat) : Nat → State → State
  | 0, s => s
  | n + 1, s =>
    match s.slots.find key with
    | none => s
    | some t =>
      match t.result, s.nrwaits.find? fun w => w.slot == key && w.ctx == t.ctx with
      | some r, some w =>
        let s := { s with nrwaits := s.nrwaits.erase w }
        State.deliver key n ((s.fillNrwait w.gid w.d w.q r).delivered key t)
      | _, _ => s

/-- NRED_CONTRIBUTION: a contribution reaches its slot (R221). -/
def State.contribute (s : State) (ctx : Nat) (desc : DWord) (op : BitVec 3) (x : DWord) : State :=
  match s.slotKey ctx desc with
  | none => s
  | some key =>
    let fresh : RedSlot := { ctx, op, count := descCount desc }
    let t := (s.slots.at key fresh).add op (descCount desc) (descRank desc) x
    let s := { s with slots := s.slots.put key t }
    s.deliver key (s.nrwaits.length + 1)

/-- NRWAIT (R222). -/
def execNrwait (d a : BitVec 6) (q : BitVec 4) (w : Bool) (s : State) : Result :=
  issue { gr := [a.toNat], gw := [d.toNat], qw := [q.toNat], trp := w } s fun gid g ei _ =>
    match s.slotKey g.ctx (g.gAt a.toNat) with
    | none => s.takeTrap gid ei { cause := .accessViolation }
    | some key =>
      let s := s.updGroup gid fun x => { (x.emptyG d.toNat).emptyQ q.toNat with accSeq := x.accSeq + 1 }
      let s := { s with nrwaits := s.nrwaits ++ [({ slot := key, gid, ctx := g.ctx, d, q, seq := g.accSeq } : NrWait)] }
      (s.deliver key (s.nrwaits.length + 1)).finish gid ei

/-! ### TLBI (R364, R365) -/

/-- The virtual function a TLBI names: SR.VF below level H. -/
def tlbiVf (g : Group) (x : DWord) : Nat := if g.priv == .h then bits x.toNat 20 16 else ctxVf g.ctx

/-- G[B] of a TLBI is in order (R365 step 2). -/
def tlbiOk (g : Group) (x : DWord) : Bool := bits x.toNat 63 21 == 0 && (g.priv == .h || bits x.toNat 20 16 == 0)

/-- A cached translation that a TLBI of a kind drops: of every page of a block, and built on every matching entry (R364). -/
def tlbiDrops (kind vf : Nat) (asid : BitVec 16) (ga : DWord) (e : TlbEntry) : Bool :=
  e.vf == vf && match kind with
    | 0 => e.asid == asid && e.vpage * 65536 / 2 ^ e.sh == ga.toNat / 65536 * 65536 / 2 ^ e.sh
    | 1 => e.asid == asid
    | 2 => true
    | 3 => e.ipage == ga.toNat / 65536 || e.path.any fun w => w.onIpa vf (ga.toNat / 65536)
    | _ => true

/-- A table entry of the walkers that a TLBI of a kind drops (R364). -/
def walkDrops (kind vf : Nat) (asid : BitVec 16) (ga : DWord) (w : WalkEntry) : Bool :=
  w.vf == vf && match kind with
    | 0 => w.stage == 1 && w.asid == asid && w.part == ga.toNat / 65536 * 65536 / 2 ^ w.sh
    | 1 => w.stage == 1 && w.asid == asid
    | 2 => w.stage == 1
    | 3 => w.onIpa vf (ga.toNat / 65536)
    | _ => true

/-- Drop the matching entries from every TLB and walker (R364). -/
def State.dropTlb (s : State) (kind vf : Nat) (asid : BitVec 16) (ga : DWord) : State :=
  { s with tlb := s.tlb.filter fun e => !tlbiDrops kind vf asid ga e
           walks := s.walks.filter fun w => !walkDrops kind vf asid ga w }

/-- A FIFO entry that carries a translated address. -/
def FifoOp.translated : FifoOp → Bool
  | .store _ _ | .atom _ _ _ _ | .bowset _ _ _ _ _ | .ste _ _ | .stf _ _ => true
  | _ => false

/-- Every access of a virtual function that used a translation is performed or logged. -/
def State.vfQuiet (s : State) (vf : Nat) : Bool :=
  s.groups.all fun g => ctxVf g.2.ctx != vf || g.2.fifo.all fun o => !o.translated

/-- TLBI of a kind may complete. -/
def State.tlbiReady (s : State) (g : Group) (vf : Nat) : Bool := g.storesDone && s.vfQuiet vf

/-- The kind of a TLBI. -/
def tlbiKind : Instr → Option Nat
  | .tlbiVa _ _ _ => some 0
  | .tlbiAsid _ _ => some 1
  | .tlbiVf _ _ => some 2
  | .tlbiIpa _ _ _ => some 3
  | .tlbiS2 _ _ => some 4
  | _ => none

/-- TLBI of a kind; `lev` is the lowest level at which it is an instruction. -/
def tlbi (kind : Nat) (a : Option (BitVec 6)) (b : BitVec 6) (w : Bool) (i : Instr) (s : State) : Result :=
  match s.acting with
  | none => .fault .noActor
  | some (_, g0, _, _) =>
    let low := if kind = 3 || kind = 4 then g0.priv != .h else g0.priv == .l
    let done (gid ei : Nat) (x y : DWord) (vf : Nat) : State :=
      (s.dropTlb kind vf (x.truncate 16) y).finish gid ei
    issueWait { gr := b.toNat :: (a.toList.map fun r => r.toNat), trp := w, illegal := low } s
      (fun gid g ei _ =>
        let x := g.gAt b.toNat
        let y := match a with
          | some r => g.gAt r.toNat
          | none => 0
        if !tlbiOk g x then s.takeTrap gid ei { cause := .accessViolation }
        else if s.tlbiReady g (tlbiVf g x) then done gid ei x y (tlbiVf g x)
        else s.beginWait gid ei { instr := i, x, y })
      (fun gid g ei _ w =>
        if s.tlbiReady g (tlbiVf g w.x) then done gid ei w.x w.y (tlbiVf g w.x) else s.block gid ei)

/-- TLBI.VA (R364). -/
def execTlbiVa (a b : BitVec 6) (w : Bool) (s : State) : Result := tlbi 0 (some a) b w (.tlbiVa a b w) s
/-- TLBI.ASID (R364). -/
def execTlbiAsid (b : BitVec 6) (w : Bool) (s : State) : Result := tlbi 1 none b w (.tlbiAsid b w) s
/-- TLBI.VF (R364). -/
def execTlbiVf (b : BitVec 6) (w : Bool) (s : State) : Result := tlbi 2 none b w (.tlbiVf b w) s
/-- TLBI.IPA (R364). -/
def execTlbiIpa (a b : BitVec 6) (w : Bool) (s : State) : Result := tlbi 3 (some a) b w (.tlbiIpa a b w) s
/-- TLBI.S2 (R364). -/
def execTlbiS2 (b : BitVec 6) (w : Bool) (s : State) : Result := tlbi 4 none b w (.tlbiS2 b w) s

end Sys2Proof.Machine
end

