-- ==== Sys2Proof/Machine/Regatta.lean ====
section
/-! DEFINITION. Sys2Proof/Machine/Regatta.lean: regatta sets at their home dispatcher: which tasks are eligible, the turns of a
heat, spawning into a set (R315 to R325). -/
namespace Sys2Proof.Machine

/-- The key of a set of a context. -/
def setKey (ctx set : Nat) : Nat := ctx * 65536 + set

/-- The descriptor's address (R315). -/
def State.setDesc (s : State) (ctx set : Nat) : DWord := (s.ctx ctx).rstab + 32 * BitVec.ofNat 64 set

/-- The holder a tile points to (R316). -/
def Tile.pointsTo (t : Tile) : DWord := if t.bow then t.holdB else t.holdA

/-- The other holder. -/
def Tile.other (t : Tile) : DWord := if t.bow then t.holdA else t.holdB

/-- Tile i names a record as a holder. -/
def Tile.names (t : Tile) (r : DWord) : Bool := t.holdA == r || t.holdB == r

/-- A task of the set has completed in this run. -/
def RSet.done (t : RSet) (r : DWord) : Bool := t.tasks.any fun k => k.record == r && k.finished

/-- A tile counts as pointing to a holder: it does, or its other holder has completed (R324). -/
def RSet.holds (t : RSet) (i : Nat) (r : DWord) : Bool :=
  match t.tiles[i]? with
  | none => false
  | some tile =>
    tile.pointsTo == r || (tile.names r && t.done (if tile.holdA == r then tile.holdB else tile.holdA))

/-- R322's conditions. -/
def RSet.canFire (t : RSet) (k : RTask) : Bool :=
  k.heats != 0 && !k.firing && !k.finished && k.tiles.all fun i => t.holds i k.record

/-- Insert by record address. -/
def insertAddr (x : DWord) : List DWord → List DWord
  | [] => [x]
  | y :: r => if x.toNat < y.toNat then x :: y :: r else y :: insertAddr x r

/-- Add the tasks that have become eligible, lower record addresses first, with the kind of heat that their IDLE state gives them
now (R322, R325). -/
def RSet.refresh (t : RSet) : RSet :=
  let now := t.tasks.filter fun k => t.canFire k && !t.eligible.any fun x => x.1 == k.record
  { t with eligible := t.eligible ++ ((now.map fun k => k.record).foldl (fun acc x => insertAddr x acc) []).map fun r =>
      (r, now.any fun k => k.record == r && k.idle) }

/-- Turn every tile of a task, subtract one heat, and count it (R322, R324). -/
def RSet.heat (t : RSet) (r : DWord) (pass : Bool) : RSet :=
  let tiles := ((t.tasks.find? fun k => k.record == r).map fun k => k.tiles).getD []
  let t1 : RSet := { t with
    tiles := t.tiles.zipIdx.map fun x => if tiles.contains x.2 then { x.1 with bow := !x.1.bow } else x.1
    tasks := t.tasks.map fun k =>
      if k.record == r then
        { k with heats := k.heats - 1, firing := false, ended := none, finished := k.heats == 1 }
      else k
    passes := if pass then t.passes + 1 else t.passes
    fires := if pass then t.fires else t.fires + 1 }
  RSet.refresh { t1 with finished := (t1.tasks.filter fun k => k.finished).length }

/-- STATE of a set (R315). -/
def RSet.stateWord (t : RSet) : Nat := (if t.checked then 1 else 0) + (if t.opened then 2 else 0)

/-- Write the copy of STATE to the descriptor; a stage-2 miss holds the write, and one that fails leaves memory as it was (R315,
R358). -/
def State.writeSetState (s : State) (ctx set : Nat) : State :=
  match s.storeBytes ctx (s.setDesc ctx set + 0x0C).toNat (leBytes 2 (s.sets.at (setKey ctx set) {}).stateWord) .s with
  | .ok _ s => s
  | .cause _ _ s => s
  | .held h s => { s with pending := s.pending ++ [({ ctx, kind := .setState set, held := some h } : Pending)] }

/-- Change a set. -/
def State.updSet (s : State) (k : Nat) (f : RSet → RSet) : State := { s with sets := s.sets.upd k f }

/-- The tile indices of a record, by place. -/
def recordTiles (r : List Byte) : List (Nat × Nat) :=
  ((List.range 8).map fun j => (j, field r (0x30 + 2 * j) 2)).filter fun x => x.2 != 0xFFFF

/-- The first refusal of R321: the address SR.TADDR takes. -/
def RSet.refusal (t : RSet) (desc record : DWord) (r : List Byte) : Option DWord :=
  let tiles := recordTiles r
  let bad := tiles.find? fun x =>
    t.tiles.length ≤ x.2 || (tiles.any fun y => y.1 < x.1 && y.2 == x.2) ||
      !((t.tiles[x.2]?).any fun tile => tile.names record)
  if !t.checked then some (desc + 0x0C)
  else if field r 2 2 == 0 then some record
  else if t.tasks.any fun k => k.record == record then some record
  else match bad with
    | some x => some (record + 0x30 + 2 * BitVec.ofNat 64 x.1)
    | none =>
      if tiles.length != (t.tiles.filter fun tile => tile.names record).length then some (record + 0x30) else none

/-- An accepted record becomes live (R321). -/
def RSet.join (t : RSet) (task : Task) (r : List Byte) : RSet :=
  let k : RTask :=
    { record := task.record, heats := field r 2 2, idle := bit (field r 0 8) 6, tiles := (recordTiles r).map fun x => x.2
      task }
  RSet.refresh { t with opened := true, tasks := t.tasks ++ [k] }

/-- A write of a run's write-back: bytes, or the BOW bit of a byte. -/
structure BackWrite where
  addr : Nat
  bytes : List Byte := []
  bow : Option Bool := none

/-- The byte a change of a tile's BOW bit leaves at its entry: bit 0 replaced. -/
def bowByte (old : Byte) (bow : Bool) : Byte := (old &&& 0xFE) ||| (if bow then 1 else 0)

/-- Make a write through the context's translations, with W. -/
def State.backWrite (s : State) (ctx : Nat) (w : BackWrite) : Got Unit :=
  match w.bow with
  | none => s.storeBytes ctx w.addr w.bytes .s
  | some b => match s.reach ctx w.addr .store .s with
    | .ok pa s => .ok () { s with mem := s.mem.writeBytes pa [bowByte (s.mem.read pa) b] }
    | .cause c a s => .cause c a s
    | .held h s => .held h s

/-- The writes of a completed run: the BOW bits, STATE, FIRES and PASSES (R324). -/
def State.backWrites (s : State) (ctx set : Nat) : List BackWrite :=
  let t := s.sets.at (setKey ctx set) {}
  let desc := (s.setDesc ctx set).toNat
  (t.tiles.zipIdx.map fun x => { addr := t.bowbase.toNat + 16 * x.2, bow := some x.1.bow }) ++
    [{ addr := desc + 0x0C, bytes := leBytes 2 0 }, { addr := desc + 0x10, bytes := leBytes 4 t.fires },
      { addr := desc + 0x14, bytes := leBytes 4 t.passes }]

/-- The end of a write-back: the writes made, the first that failed, and the page that holds the next. -/
structure BackEnd where
  s : State
  made : Nat
  fail : Option (Cause × DWord)
  held : Option Held := none

/-- Make the writes of a list; one that fails is not made, and the others are (R324). -/
def State.writeBack (ctx : Nat) : List BackWrite → Nat → Option (Cause × DWord) → State → BackEnd
  | [], n, f, s => { s, made := n, fail := f }
  | w :: rest, n, f, s =>
    match s.backWrite ctx w with
    | .ok _ s => State.writeBack ctx rest (n + 1) f s
    | .cause c a s => State.writeBack ctx rest (n + 1) (if f.isSome then f else some (c, .ofNat 64 a)) s
    | .held h s => { s, made := n, fail := f, held := some h }

end Sys2Proof.Machine
end

