-- ==== Sys2Proof/Machine/Tasks.lean ====
section
/-! DEFINITION. Sys2Proof/Machine/Tasks.lean: task records, spawning, successor counters, and what the end of a group means for
its crew, launch, task or firing (R277, R288, R297 to R308, R322, R324). -/
namespace Sys2Proof.Machine

/-- The end of a spawn. -/
inductive Spawn where
  | ok (s : State)
  | bad (c : Cause) (addr : DWord) (s : State)
  /-- A page to wait for, with the record's bytes once they have been read. -/
  | held (h : Held) (read : List Byte) (s : State)
  /-- No queue place is free (R306): the task, read and checked. -/
  | full (t : Task) (s : State)

/-- The checks of a record in offset order, but for its launch class (R297, R298). -/
def taskChecks (r : List Byte) : List (Nat × Bool) :=
  let ctrl := field r 0 8
  let kind := bits ctrl 1 0
  [(0x00, bits ctrl 47 32 == 0 && bits ctrl 7 7 == 0 &&
      (kind == 2 || (bits ctrl 63 48 == 0 && bits ctrl 31 16 == 0 && bits ctrl 6 6 == 0))),
    (0x08, if kind == 1 then field r 8 8 % 32 == 0 else field r 8 8 % 4 == 0),
    (0x20, field r 0x20 8 % 16 == 0),
    (0x30, kind == 2 || field r 0x30 16 == 0)]

/-- The task a record describes. -/
def taskOf (ctx : Nat) (record : DWord) (r : List Byte) : Task :=
  let ctrl := field r 0 8
  { record, ctx, kind := bits ctrl 1 0, prio := bits ctrl 4 2, lclass := bits ctrl 15 8, nosteal := bit ctrl 5
    entry := .ofNat 64 (field r 8 8), arg := .ofNat 64 (field r 0x10 8), succ := .ofNat 64 (field r 0x20 8), main := .ofNat 64 (field r 0x28 8) }

/-- The template of a launch class (R299): none when the entry is 0 or names no record that R285 would accept. -/
def State.template (s : State) (ctx lclass : Nat) (lev : Priv) : Got (Option Params) :=
  match s.fetchBytes ctx ((s.ctx ctx).lctab.toNat + 8 * lclass) 8 lev with
  | .cause c a s => .cause c a s
  | .held h s => .held h s
  | .ok b s =>
    let a := leNat b
    if a = 0 || a % 256 != 0 then .ok none s
    else match s.fetchBytes ctx a 256 lev with
      | .cause _ _ s => .ok none s
      | .held h s => .held h s
      | .ok r s =>
        match judge (s.vf (ctxVf ctx)) (.ofNat 64 a) r with
        | .ok p => .ok (some p) s
        | .error _ => .ok none s

/-- A copy descriptor in order (R300). -/
def descriptorOk (r : List Byte) : Bool :=
  field r 0 8 % 16 == 0 && field r 8 8 % 16 == 0 && field r 0x10 8 % 16 == 0 && 16 ≤ field r 0x10 8 &&
    field r 0x10 8 ≤ 2 ^ 40 && field r 0x18 8 == 0

/-- The bytes of a record, read once: those a spawn that waited has read already, or memory's (R297). -/
def State.recordBytes (s : State) (ctx : Nat) (record : DWord) (lev : Priv) (read : List Byte) : Got (List Byte) :=
  if read.isEmpty then s.fetchBytes ctx record.toNat 64 lev else .ok read s

/-- Spawn a record: read it whole, check it in offset order (the launch class with CTRL), place it or hand it to its set
(R299, R308, R321). -/
def State.spawn (s : State) (ctx : Nat) (record : DWord) (lev : Priv) (others : List Nat) (read : List Byte) : Spawn :=
  if record.toNat % 64 != 0 then .bad .misaligned record s
  else match s.recordBytes ctx record lev read with
  | .cause c _ s => .bad c record s
  | .held h s => .held h [] s
  | .ok r s =>
    let t := taskOf ctx record r
    let place (s : State) (t : Task) : Spawn :=
      match s.placeTask t lev others with
      | some s => .ok s
      | none => .full t s
    match firstBad (taskChecks r) with
    | some 0 => .bad .accessViolation record s
    | bad =>
      let late (s : State) (go : Spawn) : Spawn :=
        match bad with
        | some o => .bad .accessViolation (record + BitVec.ofNat 64 o) s
        | none => go
      if t.kind == 1 then
        late s (match s.fetchBytes ctx t.entry.toNat 32 lev with
          | .cause _ _ s => .bad .accessViolation t.entry s
          | .held h s => .held h r s
          | .ok d s =>
            if descriptorOk d then
              place s { t with copy := some (.ofNat 64 (field d 0 8), .ofNat 64 (field d 8 8), field d 0x10 8) }
            else .bad .accessViolation t.entry s)
      else if t.kind == 3 && lev == .l then .bad .accessViolation record s
      else match s.template ctx t.lclass lev with
        | .cause _ _ s => .bad .accessViolation record s
        | .held h s => .held h r s
        | .ok none s => .bad .accessViolation record s
        | .ok (some p) s =>
          let t := { t with params := p }
          late s (if t.kind == 2 then
            let set := bits (field r 0 8) 63 48
            let k := setKey ctx set
            let cur := s.sets.at k {}
            match cur.refusal (s.setDesc ctx set) record r with
            | some a => .bad .accessViolation a s
            | none =>
              let s := { s with sets := s.sets.put k ((cur.join { t with set := some k } r)) }
              .ok (if cur.opened then s else s.writeSetState ctx set)
          else place s t)

/-- The offset in a record of its refused field: a copy descriptor is named by ENTRY, and a set by CTRL (R377; log 63). -/
def refusedAt (record a : DWord) : DWord := if (a - record).toNat < 64 then a - record else if a.toNat % 32 = 0x0C then 0 else 8

/-- A spawn made by a slice: a failure posts an event, and a miss or a full queue waits (R302, R306, R308). -/
def State.sliceSpawn (s : State) (ctx : Nat) (record : DWord) (lev : Priv) (others : List Nat) (read : List Byte := []) : State :=
  match s.spawn ctx record lev others read with
  | .ok s => s
  | .bad c a s => s.postEvent ctx { addr := record, info := refusedAt record a, kind := c.code }
  | .held h r s => { s with pending := s.pending ++ [{ ctx, kind := .spawn record others r, lev, held := some h }] }
  | .full t s => { s with pending := s.pending ++ [{ ctx, kind := .place t others none, lev }] }

/-- Write STATUS of a launch record (R285). -/
def State.writeStatus (s : State) (ctx : Nat) (record : DWord) (value : Nat) (lev : Priv) : State :=
  match s.storeBytes ctx (record.toNat + 0xF8) (leBytes 8 value) lev with
  | .ok _ s => s
  | .cause c a s => s.postEvent ctx { addr := .ofNat 64 a, info := record, kind := c.code }
  | .held h s => { s with pending := s.pending ++ [{ ctx, kind := .status record value record, lev, held := some h }] }

/-- After the decrement of a launch's DONE, made or lost, its STATUS becomes 0x03 (R302). -/
def State.afterDone (s : State) (ctx : Nat) (ends : Option DWord) (lev : Priv) : State :=
  match ends with
  | some r => s.writeStatus ctx r 0x03 lev
  | none => s

/-- Decrement a successor counter, spawning its successor at zero and reporting an underflow; `ends` is the launch whose STATUS
follows (R302). -/
def State.decrement (s : State) (ctx : Nat) (addr info : DWord) (lev : Priv) (ends : Option DWord := none) : State :=
  if addr = 0 then s.afterDone ctx ends lev
  else if addr.toNat % 16 != 0 then
    (s.postEvent ctx { addr, info, kind := Cause.misaligned.code }).afterDone ctx ends lev
  else match s.reach ctx addr.toNat .atomic lev with
  | .cause c _ s => (s.postEvent ctx { addr, info, kind := c.code }).afterDone ctx ends lev
  | .held h s => { s with pending := s.pending ++ [{ ctx, kind := .decrement addr info ends, lev, held := some h }] }
  | .ok pa s =>
    let c : DWord := .ofNat 64 (s.mem.readN pa 8) - 1
    let s := { s with mem := s.mem.writeN pa 8 c.toNat }
    let succ : DWord := .ofNat 64 (s.mem.readN (pa + 8) 8)
    let s := if c = 0 && succ != 0 then s.sliceSpawn ctx succ lev (sliceCores (s.owner pa))
      else if c.slt 0 then s.postEvent ctx { addr, kind := Cause.counterUnderflow.code }
      else s
    s.afterDone ctx ends lev

/-- A launch whose last crew has ended: DONE is decremented, then STATUS becomes 0x03 (R302). -/
def State.endLaunch (s : State) (id : Nat) (l : Launch) : State :=
  { s with launches := s.launches.del id }.decrement l.ctx l.params.done l.params.recAddr l.priv (some l.params.recAddr)

/-- The set of a run that has completed stands unarmed (R317). -/
def RSet.disarm (t : RSet) : RSet :=
  { t with checked := false, opened := false, tasks := [], eligible := [], finished := 0, tiles := [] }

/-- The set of a completed run stands unarmed, and the counter of its last task is decremented (R317, R324). -/
def State.closeRun (s : State) (ctx set : Nat) (record succ : DWord) : State :=
  let k := setKey ctx set
  let freed := (s.sets.at k {}).reserved
  let s := s.updCtx ctx fun c => { c with areaUsed := c.areaUsed - freed }
  (s.updSet k fun t => { t.disarm with reserved := 0 }).decrement ctx succ record .l

/-- The end of a run, from a write of its write-back on: one event for the first write that fails, then the counter of its last
task (R324). -/
def State.endRun (s : State) (ctx set : Nat) (record succ : DWord) (made : Nat) (fail : Option (Cause × DWord)) : State :=
  let e := State.writeBack ctx ((s.backWrites ctx set).drop made) made fail s
  match e.held, e.fail with
  | some h, f =>
    { e.s with pending := e.s.pending ++ [{ ctx, kind := .writeBack set record succ e.made f, held := some h }] }
  | none, some (c, a) => (e.s.postEvent ctx { addr := a, kind := c.code }).closeRun ctx set record succ
  | none, none => e.s.closeRun ctx set record succ

/-- A heat of a task ends or passes: its tiles turn; a task with no heats left completes (R322 to R324). -/
def State.endHeat (s : State) (k : Nat) (record : DWord) (pass : Bool) : State :=
  let t := s.sets.at k {}
  let t' := t.heat record pass
  let s := { s with sets := s.sets.put k t' }
  if t'.done record && !t.done record then
    let succ := ((t.tasks.find? fun x => x.record == record).map fun x => x.task.succ).getD 0
    if t'.finished == t'.ntasks then s.endRun t.ctx (k % 65536) record succ 0 none
    else s.decrement t.ctx succ record .l
  else s

/-- The key that stands for a group that has ended. -/
def endedGroup : Nat := 2 ^ 20

/-- QPOPs and NRWAITs of a group that ends take their full effect, and what they take is discarded (R277). -/
def State.dropWaits (s : State) (gid : Nat) : State :=
  { s with
    queues := s.queues.mapAll fun _ q =>
      { q with waiters := q.waiters.map fun w => if w.gid == gid then { w with gid := endedGroup } else w }
    nrwaits := s.nrwaits.map fun w => if w.gid == gid then { w with gid := endedGroup } else w }

/-- Crews leave their cores: their scratchpads read zero, their tags full (R78, R288). -/
def State.dropCrews (s : State) (ks : List (Nat × Crew)) : State :=
  ks.foldl (fun s k => { s with crews := s.crews.del k.1 }.updCore k.2.core fun c =>
    c.clearScratch k.2.sbase k.2.params.scratch) s

/-- The resident crews of a crew's gang (R288). -/
def State.gangOf (s : State) (key : Nat) (c : Crew) : List (Nat × Crew) :=
  match c.origin with
  | .launch _ => s.crews.filter fun o =>
      o.1 == key || (o.2.origin == c.origin && o.2.idx / max 1 c.params.gang == c.idx / max 1 c.params.gang)
  | _ => [(key, c)]

/-- A crew's last group has ended: it gives its pool back, and leaves its core with the last crew of its gang (R288, R309). -/
def State.endCrew (s : State) (key : Nat) (c : Crew) : State :=
  let s := { s with crews := s.crews.put key { c with groups := [], pool := 0 } }
  let gang := s.gangOf key c
  if gang.all fun o => o.2.groups.isEmpty then s.dropCrews gang else s

/-- A group's final exit completes: it ends, and with the last group of its crew the crew, its task, firing or launch
(R277, R288, R302, R309, R322). What its fabric and CXL loads still bring is discarded. -/
def State.endGroup (s : State) (gid : Nat) : State :=
  match s.groups.find gid with
  | none => s
  | some g =>
    let s := { s with groups := s.groups.del gid, txs := s.txs.filter fun t => t.gid != gid }.dropWaits gid
    match s.crews.find g.crew with
    | none => s
    | some c =>
      let c := { c with groups := c.groups.filter (· != gid), claims := c.claims.filter fun x => x.1 != gid }
      if !c.groups.isEmpty then { s with crews := s.crews.put g.crew c }
      else
        let s := s.endCrew g.crew c
        match c.origin with
        | .task r succ => s.decrement c.ctx succ r g.priv
        | .firing k r =>
          s.updSet k fun t => { t with tasks := t.tasks.map fun x =>
            if x.record == r then { x with ended := some g.pass } else x }
        | .launch id =>
          match s.launches.find id with
          | none => s
          | some l =>
            let l := { l with ended := l.ended + 1 }
            if l.ended == l.crews then s.endLaunch id l else { s with launches := s.launches.put id l }

/-- Run again what waits for a page, or for a queue place (R302, R306, R359). -/
def State.retryPending (s : State) (sel : Pending → Bool) : State :=
  let (go, stay) := s.pending.partition sel
  go.foldl (fun s p =>
    if (s.contexts.find p.ctx).isNone then s
    else match p.kind with
    | .decrement a i ends => s.decrement p.ctx a i p.lev ends
    | .status a v _ => s.writeStatus p.ctx a v p.lev
    | .spawn r others read => s.sliceSpawn p.ctx r p.lev others read
    | .place t others _ =>
      match s.placeTask t p.lev others with
      | some s => s
      | none => { s with pending := s.pending ++ [p] }
    | .writeBack set r succ made fail => s.endRun p.ctx set r succ made fail
    | .setState set => s.writeSetState p.ctx set) { s with pending := stay }

/-- A FAULT or UNAVAILABLE reply fails what waits (R285, R302, R324). -/
def State.failPending (s : State) (sel : Pending → Bool) (c : Cause) : State :=
  let (go, stay) := s.pending.partition sel
  go.foldl (fun s p =>
    match p.kind with
    | .decrement a i ends => (s.postEvent p.ctx { addr := a, info := i, kind := c.code }).afterDone p.ctx ends p.lev
    | .status a _ i => s.postEvent p.ctx { addr := a + 0xF8, info := i, kind := c.code }
    | .spawn r _ read =>
      if read.isEmpty then s.postEvent p.ctx { addr := r, kind := c.code }
      else s.postEvent p.ctx { addr := r, kind := Cause.accessViolation.code }
    | .place _ _ _ | .setState _ => s
    | .writeBack set r succ made fail =>
      let a := (((s.backWrites p.ctx set)[made]?).map fun w => w.addr).getD 0
      s.endRun p.ctx set r succ (made + 1) (if fail.isSome then fail else some (c, .ofNat 64 a))) { s with pending := stay }

end Sys2Proof.Machine
end

