-- ==== Sys2Proof/Machine/Queues.lean ====
section
/-! DEFINITION. Sys2Proof/Machine/Queues.lean: hardware queues, TSPAWN, and the crew's block pool (R60, R292 to R296, R303 to R309,
R433). -/
namespace Sys2Proof.Machine

/-! ### Queues (R292) -/

/-- The live queue a handle names in a context. -/
def State.queueOf (s : State) (ctx : Nat) (h : DWord) : Option (Nat × Queue) :=
  let n := h.toNat
  if bits n 47 12 != 0 then none
  else match s.queues.find (n % 4096) with
  | some q => if q.live && q.ctx == ctx && q.gen == bits n 63 48 then some (n % 4096, q) else none
  | none => none

/-- The handle of a queue. -/
def queueHandle (i : Nat) (q : Queue) : DWord := .ofNat 64 (q.gen * 2 ^ 48 + i)

/-- Change a queue. -/
def State.updQueue (s : State) (i : Nat) (f : Queue → Queue) : State := { s with queues := s.queues.upd i f }

/-- The highest class that is not empty. -/
def Queue.topClass (q : Queue) : Nat := q.elems.foldl (fun m e => max m e.1) 0

/-- The oldest element of the highest non-empty class, and the queue without it. -/
def Queue.pop (q : Queue) : Option (DWord × Queue) :=
  (q.elems.find? fun e => e.1 == q.topClass).map fun e => (e.2, { q with elems := q.elems.erase e })

/-- A taken value is on its way to a group, which acquires at .dev (R296). -/
def State.handOver (s : State) (gid : Nat) (d : BitVec 6) (v : DWord) : State :=
  let s := s.updGroup gid fun g => { g with fills := g.fills ++ [{ g := [(d, v)] }] }
  match s.groups.find gid with
  | some g => s.dropL1 g.core
  | none => s

/-- Put a value into a queue: to the oldest waiting QPOP, or into its class list; none when the queue is full (R295, R296). -/
def State.enqueue (s : State) (i : Nat) (q : Queue) (cls : Nat) (v : DWord) : Option State :=
  match q.waiters.find? fun w => !w.away with
  | some w => some ((s.updQueue i fun q => { q with waiters := q.waiters.erase w }).handOver w.gid w.d v)
  | none =>
    if q.cap ≤ q.elems.length then none
    else some (s.updQueue i fun q => { q with elems := q.elems ++ [(cls, v)] })

/-- An L group may not push to the supervisor queue, and a launch queue takes launch records (R295, R433). -/
def State.pushOk (s : State) (g : Group) (i : Nat) (q : Queue) (v : DWord) : Bool :=
  (!q.launch || v.toNat % 256 == 0) && (g.priv != .l || (s.ctx g.ctx).sq != i)

/-- QPUSH (R294, R295). -/
def execQpush (qf : BitVec 4) (a b : BitVec 6) (c : BitVec 3) (w : Bool) (s : State) : Result :=
  issueMem { gr := [a.toNat, b.toNat], qw := [qf.toNat], trp := w } s fun gid g ei _ =>
    let h := g.gAt a.toNat
    match s.queueOf g.ctx h with
    | none => s.takeTrap gid ei badHandle
    | some (i, q) =>
      if !s.pushOk g i q (g.gAt b.toNat) then s.takeTrap gid ei badHandle
      else if g.fifoFull then s.block gid ei
      else
        let s := s.updGroup gid fun x => x.emptyQ qf.toNat
        (s.pushFifo gid (.qpush h c (g.gAt b.toNat) qf)).finish gid ei

/-- A QPUSH reaches its queue engine: the push, and the full predicate on its way (R295; log 41). -/
def State.performPush (s : State) (gid : Nat) (g : Group) (h : DWord) (cls : BitVec 3) (v : DWord) (qf : BitVec 4) : State :=
  let answer (s : State) (full : Bool) : State :=
    s.updGroup gid fun g => { g with fills := g.fills ++ [{ q := [(qf, full)] }] }
  match s.queueOf g.ctx h with
  | none => answer s true
  | some (i, q) =>
    match s.enqueue i q cls.toNat v with
    | some s => answer s false
    | none => answer s true

/-- QPOP (R296). -/
def execQpop (d a : BitVec 6) (w : Bool) (s : State) : Result :=
  issue { gr := [a.toNat], gw := [d.toNat], trp := w } s fun gid g ei e =>
    match s.queueOf g.ctx (g.gAt a.toNat) with
    | none => s.takeTrap gid ei badHandle
    | some (i, q) =>
      if q.launch then s.takeTrap gid ei badHandle
      else
        let s := s.updGroup gid fun x => { x.emptyG d.toNat with accSeq := x.accSeq + 1 }
        let s := match q.pop with
          | some (v, q') => (s.updQueue i fun _ => q').handOver gid d v
          | none => s.updQueue i fun q => { q with waiters := q.waiters ++ [({ gid, d, seq := g.accSeq, pc := e.pc } : Waiter)] }
        s.finish gid ei

/-- QTRY (R296). -/
def execQtry (d a : BitVec 6) (qs : BitVec 4) (w : Bool) (s : State) : Result :=
  issue { gr := [a.toNat], gw := [d.toNat], qw := [qs.toNat], trp := w } s fun gid g ei _ =>
    match s.queueOf g.ctx (g.gAt a.toNat) with
    | none => s.takeTrap gid ei badHandle
    | some (i, q) =>
      if q.launch then s.takeTrap gid ei badHandle
      else
        let s := s.updGroup gid fun x => (x.emptyG d.toNat).emptyQ qs.toNat
        let land (s : State) (v : DWord) (ok : Bool) : State :=
          s.updGroup gid fun x => { x with fills := x.fills ++ [{ g := [(d, v)], q := [(qs, ok)] }] }
        match q.pop with
        | some (v, q') => ((land (s.updQueue i fun _ => q') v true).dropL1 g.core).finish gid ei
        | none => (land s 0 false).finish gid ei

/-! ### Places in the store FIFO of forms that wait in their entry (R308, R318) -/

/-- The entry takes its place in the FIFO and waits for its turn. -/
def State.queueMark (s : State) (gid ei : Nat) (g : Group) (w : Wait) : State :=
  (s.pushFifo gid (.mark g.accSeq)).beginWait gid ei w

/-- The wait's turn has come: nothing stands ahead of it, and every earlier access is performed. -/
def Group.markTurn (g : Group) (seq : Nat) : Bool :=
  g.logsAfter seq && g.fifoHead == some (.mark seq)

/-- The place is given up. -/
def State.popMark (s : State) (gid seq : Nat) : State :=
  s.updGroup gid fun g => { g with fifo := g.fifo.filter fun o => o != .mark seq }

/-! ### TSPAWN (R307, R308) -/

/-- The cores of a core's half-cluster (R304). -/
def halfCluster (core : Nat) : List Nat := (List.range 4).map fun i => core / 4 * 4 + i

/-- TSPAWN's turn: the record read and checked, and the task placed or waiting for a place (R304, R306, R308, R321). -/
def State.tryTspawn (s : State) (gid ei : Nat) (g : Group) (w : Wait) : State :=
  match s.spawn g.ctx w.x g.priv (halfCluster g.core) w.kept with
  | .ok s => (s.popMark gid w.seq).finish gid ei
  | .bad c a s => (s.popMark gid w.seq).takeTrap gid ei { cause := c, addr := a }
  | .held h r s =>
    (s.setWait gid ei { w with data := if r.isEmpty then [] else keepBytes r }).updEntry gid ei fun e =>
      { e with held := some h, blocked := true }
  | .full t s =>
    let s := { s with pending := s.pending ++
      [({ ctx := g.ctx, kind := .place t (halfCluster g.core) (some (gid, w.seq)), lev := g.priv } : Pending)] }
    (s.popMark gid w.seq).setWait gid ei { w with phase := 1 }

/-- A task of a group still waits for a queue place. -/
def State.placing (s : State) (gid seq : Nat) : Bool :=
  s.pending.any fun p => match p.kind with
    | .place _ _ who => who == some (gid, seq)
    | _ => false

/-- TSPAWN (R307, R308). -/
def execTspawn (a : BitVec 6) (w : Bool) (s : State) : Result :=
  issueWait { gr := [a.toNat], trp := w } s
    (fun gid g ei _ =>
      let r := g.gAt a.toNat
      if g.fencing then s.block gid ei
      else if r.toNat % 64 != 0 then s.takeTrap gid ei { cause := .misaligned, addr := r }
      else if g.fifoFull then s.block gid ei
      else s.queueMark gid ei g { instr := .tspawn a w, x := r })
    (fun gid g ei e wt =>
      if wt.phase = 1 then (if s.placing gid wt.seq then s.block gid ei else s.finish gid ei)
      else match e.fail with
      | some c =>
        ((s.popMark gid wt.seq).updEntry gid ei fun e => { e with fail := none }).takeTrap gid ei
          { cause := if wt.data.isEmpty then c else .accessViolation, addr := wt.x }
      | none => if e.held.isSome || !g.markTurn wt.seq then s.block gid ei else s.tryTspawn gid ei g wt)

/-! ### VGIVE and VCLAIM (R60, R309) -/

/-- V registers from r on are full in every lane. -/
def Group.fullFrom (g : Group) (r : Nat) : Bool := (List.range (128 - r)).all fun i => vecGet g.ve (r + i) 0 == 0

/-- An operand-log entry names a register from r on. -/
def Group.logNames (g : Group) (r : Nat) : Bool :=
  g.logOrder.any fun i => (vecGet g.oplog i none).any fun e =>
    (landFill e.src.instr []).any fun x => r ≤ x.1.toNat

/-- Write zero into every V register from r on. -/
def Group.zeroFrom (g : Group) (r : Nat) : Group :=
  { g with v := Vector.ofFn fun i => if r ≤ i.val then Vector.replicate 128 0 else g.v[i] }

/-- VGIVE's test: the top n blocks go to the pool, or it waits. -/
def State.testVgive (s : State) (gid ei : Nat) (g : Group) (n : Nat) (stay : State) : State :=
  if g.blocks ≤ n then s.takeTrap gid ei { cause := .regRange }
  else
    let r := 8 * (g.blocks - n)
    if g.fullFrom r && !g.logNames r then
      let s := s.updGroup gid fun g => { g.zeroFrom r with blocks := g.blocks - n }
      (s.updCrew g.crew fun c => { c with pool := c.pool + n }).finish gid ei
    else stay

/-- VGIVE (R309). -/
def execVgive (n : BitVec 6) (w : Bool) (s : State) : Result :=
  issueWait { trp := w } s
    (fun gid g ei _ => s.testVgive gid ei g n.toNat (s.beginWait gid ei { instr := .vgive n w }))
    (fun gid g ei _ _ => s.testVgive gid ei g n.toNat (s.block gid ei))

/-- VCLAIM takes its blocks: zero, every register full. -/
def State.takeBlocks (s : State) (gid ei : Nat) (g : Group) (n : Nat) : State :=
  let s := s.updGroup gid fun g => { g.zeroFrom (8 * g.blocks) with blocks := g.blocks + n }
  (s.updCrew g.crew fun c => { c with pool := c.pool - n }).finish gid ei

/-- VCLAIM (R309): claims of a crew are served in arrival order. -/
def execVclaim (n : BitVec 6) (w : Bool) (s : State) : Result :=
  issueWait { trp := w } s
    (fun gid g ei _ =>
      let c := s.crew g.crew
      if 16 < g.blocks + n.toNat then s.takeTrap gid ei { cause := .regRange }
      else if c.claims.isEmpty && n.toNat ≤ c.pool then s.takeBlocks gid ei g n.toNat
      else
        (s.updCrew g.crew fun c => { c with claims := c.claims ++ [(gid, g.accSeq)] }).beginWait gid ei
          { instr := .vclaim n w, x := .ofNat 64 n.toNat })
    (fun gid g ei _ wt =>
      let c := s.crew g.crew
      if c.claims.head? == some (gid, wt.seq) && n.toNat ≤ c.pool then
        (s.updCrew g.crew fun c => { c with claims := c.claims.tail }).takeBlocks gid ei g n.toNat
      else s.block gid ei)

/-! ### Host commands on queues (R433) -/

/-- The key of a context of a virtual function. -/
def ctxKey (vf ctx : Nat) : Nat := vf * 4096 + ctx

/-- A host command that is refused: nothing changes, and the answer says so, with the reason: the place of the condition in the
row of R433's table, from 1 (log 64); 0 where the manual asks for no reason. -/
def refuse (s : State) (why : Nat := 0) : Result := .next (s.answer false (.ofNat 64 why))

/-- QCREATE (R292, R433). -/
def execQcreate (vf ctx : Nat) (launch : Bool) (k : Nat) (s : State) : Result :=
  let key := ctxKey vf ctx
  if (s.contexts.find key).isNone || 4096 ≤ ctx then refuse s 1
  else if k < 4 || 16 < k then refuse s 2
  else match (List.range 4096).find? fun i => !(s.queues.at i {}).live with
  | none => refuse s 3
  | some i =>
    let q : Queue := { gen := (s.queues.at i {}).gen, live := true, ctx := key, launch, cap := 2 ^ k }
    .next ({ s with queues := s.queues.put i q }.answer true (queueHandle i q))

/-- QSUBMIT (R433): it stands on the agenda again while a write made before it waits for a page. -/
def execQsubmit (vf ctx : Nat) (handle : DWord) (cls : Nat) (v : DWord) (s : State) : Result :=
  if s.inbound.any fun r => r.vf == vf && r.kind == 1 then
    .next { s with agenda := s.agenda ++ [.qsubmit vf ctx handle cls v] }
  else match s.queueOf (ctxKey vf ctx) handle with
  | none => refuse s 1
  | some (i, q) =>
    if 7 < cls then refuse s 2
    else if q.launch && v.toNat % 256 != 0 then refuse s 4
    else match s.enqueue i q cls v with
    | none => refuse s 3
    | some s => .next (s.answer true)

/-- A QPOP that waits on a queue that is destroyed traps (R433; log 42): its destination reads as before. -/
def State.popTrap (s : State) (w : Waiter) : State :=
  match s.groups.find w.gid with
  | none => s
  | some g =>
    let s := s.putGroup w.gid (g.fullG w.d.toNat)
    if g.finalExit then s else s.takeTrap w.gid 0 { cause := .accessViolation, pc := some w.pc }

/-- QDESTROY (R433). -/
def execQdestroy (vf ctx : Nat) (handle : DWord) (s : State) : Result :=
  match s.queueOf (ctxKey vf ctx) handle with
  | none => refuse s 1
  | some (i, q) =>
    let s := s.updQueue i fun q => { q with live := false, gen := nextGen q.gen, elems := [], waiters := [] }
    .next ((q.waiters.foldl State.popTrap s).answer true)

end Sys2Proof.Machine
end

