-- ==== Sys2Proof/Machine/Bows.lean ====
section
/-! DEFINITION. Sys2Proof/Machine/Bows.lean: arming a regatta set (BOWCHK with its acyclic-start check and witness), BOWSET,
BOWIDLE, BOWWAKE, and the steps of a set's dispatcher (R306, R315 to R327). -/
namespace Sys2Proof.Machine

/-! ### The descriptor (R315) -/

/-- The checks of a descriptor's fields in offset order. -/
def setChecks (r : List Byte) : List (Nat × Bool) :=
  [(0x00, globalAddr (field r 0 8) && field r 0 8 % 64 == 0), (0x08, field r 8 2 != 0), (0x0A, 2 ≤ field r 0x0A 2),
    (0x0E, field r 0x0E 2 == 0), (0x18, field r 0x18 8 == 0)]

/-- The end of the checks of a set's number and descriptor: the 32 bytes, a trap, or a page to wait for. -/
inductive SetEnd where
  | ok (r : List Byte) (s : State)
  | bad (t : TrapInfo) (s : State)
  | held (h : Held) (s : State)

/-- Check the set number in G[A] and the set's descriptor (R318, R320). -/
def State.checkSet (s : State) (g : Group) (x : DWord) : SetEnd :=
  if 65536 ≤ x.toNat || (s.ctx g.ctx).rslen ≤ x.toNat then .bad { cause := .accessViolation, addr := x } s
  else
    let desc := s.setDesc g.ctx x.toNat
    match s.fetchBytes g.ctx desc.toNat 32 g.priv with
    | .cause c a s => .bad { cause := c, addr := .ofNat 64 a } s
    | .held h s => .held h s
    | .ok r s =>
      match firstBad (setChecks r) with
      | some o => .bad { cause := .accessViolation, addr := desc + .ofNat 64 o } s
      | none => .ok r s

/-- The slice that owns a set's descriptor. -/
def State.setHome (s : State) (ctx set : Nat) : Nat :=
  match s.translate ctx (s.setDesc ctx set).toNat .load .s with
  | .ok e => s.owner (e.pa (s.setDesc ctx set).toNat)
  | _ => 0

/-! ### The acyclic-start check (R316, R318, R319) -/

/-- A bow-table entry. -/
def tileOf (r : List Byte) : Tile :=
  { holdA := .ofNat 64 (field r 0 8 / 64 * 64), holdB := .ofNat 64 (field r 8 8 / 64 * 64), bow := bit (field r 0 8) 0 }

/-- The entry's reserved bits are zero, and its holders are two (R316, R318). -/
def tileOk (r : List Byte) : Bool :=
  bits (field r 0 8) 5 1 == 0 && bits (field r 8 8) 5 0 == 0 && (tileOf r).holdA != 0 && (tileOf r).holdB != 0 &&
    (tileOf r).holdA != (tileOf r).holdB

/-- Tiles that name a holder. -/
def tileCount (ts : List Tile) (h : DWord) : Nat := (ts.filter fun t => t.names h).length

/-- The holders of a table, each once. -/
def holders (ts : List Tile) : List DWord := (ts.flatMap fun t => [t.holdA, t.holdB]).eraseDups

/-- The malformed tile of a table, if there is one: one pass, which counts a holder's tiles as it reads them (R318). -/
def malformedTile (raw : List (List Byte)) (ntasks : Nat) : Option Nat :=
  let ts := raw.map tileOf
  let bad (i : Nat) (r : List Byte) : Bool :=
    !tileOk r || 8 < tileCount (ts.take (i + 1)) (tileOf r).holdA || 8 < tileCount (ts.take (i + 1)) (tileOf r).holdB
  match (raw.zipIdx.find? fun x => bad x.2 x.1).map fun x => x.2 with
  | some i => some i
  | none => if (holders ts).length != ntasks then some (raw.length - 1) else none

/-- A holder is a sink of the tiles that remain. -/
def isSink (ts : List (Nat × Tile)) (h : DWord) : Bool := ts.all fun t => !t.2.names h || t.2.pointsTo == h

/-- Remove every sink with its tiles, again and again. -/
def removeSinks : Nat → List (Nat × Tile) → List (Nat × Tile)
  | 0, ts => ts
  | n + 1, ts => removeSinks n (ts.filter fun t => !isSink ts t.2.pointsTo)

/-- The lowest-numbered remaining tile that points away from a holder. -/
def tileAway (ts : List (Nat × Tile)) (h : DWord) : Option (Nat × Tile) := ts.find? fun t => t.2.other == h

/-- Walk from a holder until one is reached again; the cycle's tiles in order (R319). -/
def walkCycle (ts : List (Nat × Tile)) : Nat → DWord → List (DWord × Nat) → List Nat
  | 0, _, path => path.map fun x => x.2
  | n + 1, u, path =>
    if path.any fun x => x.1 == u then (path.dropWhile fun x => x.1 != u).map fun x => x.2
    else match tileAway ts u with
    | some t => walkCycle ts n t.2.pointsTo (path ++ [(u, t.1)])
    | none => path.map fun x => x.2

/-- The witness of the tiles that remain. -/
def witness (ts : List (Nat × Tile)) : List Nat :=
  match ts with
  | [] => []
  | t :: _ => walkCycle ts (2 * ts.length + 1) t.2.other []

/-! ### Arming (R306, R317) -/

/-- Bow-cache entries of a slice that armed sets use on chip. -/
def State.bowCacheUsed (s : State) (home : Nat) : Nat :=
  s.sets.foldl (fun n t => if t.2.checked && t.2.home == home then n + (t.2.tiles.length - t.2.reserved / 16) else n) 0

/-- The set stands unarmed, and its reservation is freed (R306, R317). -/
def State.unarm (s : State) (ctx set : Nat) : State :=
  let k := setKey ctx set
  let freed := (s.sets.at k {}).reserved
  let s := s.updCtx ctx fun c => { c with areaUsed := c.areaUsed - freed }
  (s.updSet k fun t => { t.disarm with reserved := 0 }).writeSetState ctx set

/-- Arm a set with the copy of its bow table; none when the task area cannot hold the copy (R306). -/
def State.arm (s : State) (ctx set bowbase ntasks : Nat) (tiles : List Tile) : Option State :=
  let s := s.unarm ctx set
  let home := s.setHome ctx set
  let free := 16384 - s.bowCacheUsed home
  let need := 16 * (tiles.length - min tiles.length free)
  let c := s.ctx ctx
  if need != 0 && c.tasksize < c.areaUsed + need then none
  else
    let s := s.updCtx ctx fun c => { c with areaUsed := c.areaUsed + need }
    let t : RSet := { ctx, desc := s.setDesc ctx set, home, bowbase := .ofNat 64 bowbase, checked := true, ntasks, tiles
                      reserved := need }
    some ({ s with sets := s.sets.put (setKey ctx set) t }.writeSetState ctx set)

/-! ### BOWCHK (R318) -/

/-- The address a hold of the entry's own reads stands at. -/
def Wait.heldAt (w : Wait) : DWord := (w.places.head?.map fun p => p.2.2.2).getD 0

/-- Field i of what a wait keeps. -/
def Wait.kept32 (w : Wait) (i : Nat) : Nat := ((w.data.find? fun x => x.1 == i).map fun x => x.2.toNat).getD 0

/-- The bow table's entries read, from entry i on. -/
inductive Table where
  | ok (rs : List (List Byte)) (s : State)
  | bad (t : TrapInfo) (s : State)
  | held (h : Held) (addr : Nat) (s : State)

/-- Read n entries of a bow table. -/
def State.readTable (g : Group) : Nat → Nat → List (List Byte) → State → Table
  | 0, _, rs, s => .ok rs s
  | n + 1, a, rs, s =>
    match s.fetchBytes g.ctx a 16 g.priv with
    | .ok r s => State.readTable g n (a + 16) (rs ++ [r]) s
    | .cause c _ s => .bad { cause := c, addr := .ofNat 64 a } s
    | .held h s => .held h a s

/-- BOWCHK's status word. -/
def bowStatus (st tile len : Nat) : DWord := .ofNat 64 (len * 2 ^ 32 + tile * 2 ^ 16 + st)

/-- A log reservation and a FIFO entry are to be had for the witness stores. -/
def Group.witnessRoom (g : Group) : Bool := g.reserved < 8 && g.fifo.length < 32

/-- The witness stores enter the FIFO as an ST of 2 bytes for each tile; one that faults now is logged (R318). -/
def State.storeWitness (s : State) (gid : Nat) (g : Group) (e : Entry) (i : Instr) (buf : DWord) (ws : List Nat) : State :=
  let src := g.source e i
  let word (l : Fin 128) : Word := .ofNat 32 (ws.getD l.val 0)
  let lanes := (List.finRange 128).filter fun l => l.val < min 32 ws.length
  let ls : List LaneAcc := lanes.map fun l =>
    let a := buf + 2 * BitVec.ofNat 64 l.val
    { lane := l, addr := a, fin := match s.laneEnd g 0 a.toNat 2 .store with
      | .bad _ c => .log (.lost c s.tick) none none
      | x => x }
  s.storeForm gid g src 2 (fun l => [word l]) ls

/-- BOWCHK's judgement of a table that has been read: the set armed or not, the status, and the cycle's tiles (R318). -/
def State.judgeTable (s : State) (ctx set base ntasks : Nat) (raw : List (List Byte)) : State × DWord × List Nat :=
  match malformedTile raw ntasks with
  | some i => (s.unarm ctx set, bowStatus 2 i 0, [])
  | none =>
    let tiles := raw.map tileOf
    let ws := witness (removeSinks raw.length ((List.range raw.length).zip tiles))
    if ws.isEmpty then
      match s.arm ctx set base ntasks tiles with
      | some s => (s, 0, [])
      | none => (s.unarm ctx set, 4, [])
    else (s.unarm ctx set, bowStatus 1 (ws.headD 0) ws.length, ws)

/-- The address of the bow table that a BOWCHK has read from its descriptor. -/
def Wait.bowTable (w : Wait) : Nat := w.kept32 2 + 2 ^ 32 * w.kept32 3

/-- BOWCHK ends with a status. -/
def State.endBowchk (s : State) (gid ei : Nat) (d : BitVec 6) (seq : Nat) (v : DWord) : State :=
  ((s.popMark gid seq).updGroup gid fun g => g.setG d.toNat v).finish gid ei

/-- BOWCHK's turn: the table read and judged, the set armed or not (R318). -/
def State.tryBowchk (s : State) (gid ei : Nat) (g : Group) (e : Entry) (d : BitVec 6) (w : Wait) : State :=
  let set := w.x.toNat % 65536
  if (s.sets.at (setKey g.ctx set) {}).opened then s.endBowchk gid ei d w.seq 3
  else match State.readTable g (w.kept32 0) w.bowTable [] s with
  | .bad t s => (s.popMark gid w.seq).takeTrap gid ei t
  | .held h a s =>
    (s.setWait gid ei { w with places := [(0, 0, 0, .ofNat 64 a)] }).updEntry gid ei fun e =>
      { e with held := some h, blocked := true }
  | .ok raw s =>
    let (s', v, ws) := s.judgeTable g.ctx set w.bowTable (w.kept32 1) raw
    if ws.isEmpty || w.y = 0 then s'.endBowchk gid ei d w.seq v
    else if !s.mayLog g e then (s.setWait gid ei w).queueAt gid ei []
    else if !g.witnessRoom then (s.setWait gid ei w).block gid ei
    else (s'.storeWitness gid (s'.groups.at gid {}) e w.instr w.y ws).endBowchk gid ei d w.seq v

/-- What is left of a BOWCHK whose entry has ended: its judgement and its witness stores; none while it waits for room (R278,
R318). -/
def State.lateBowchk (s : State) (gid : Nat) (g : Group) (w : Wait) (raw : List (List Byte)) : Option State :=
  let (s', _, ws) := s.judgeTable g.ctx (w.x.toNat % 65536) w.bowTable (w.kept32 1) raw
  if ws.isEmpty || w.y = 0 then some s'
  else if g.witnessRoom then some (s'.storeWitness gid (s'.groups.at gid {}) {} w.instr w.y ws)
  else none

/-- BOWCHK's checks at issue; `hold` waits for a page of the descriptor. -/
def State.startBowchk (s : State) (gid ei : Nat) (g : Group) (w : Wait) (fresh : Bool) : State :=
  let begin_ (s : State) (w : Wait) : State := if fresh then s.beginWait gid ei w else s.setWait gid ei w
  match s.checkSet g w.x with
  | .bad t s => s.takeTrap gid ei t
  | .held h s =>
    (begin_ s { w with phase := 2, places := [(0, 0, 0, s.setDesc g.ctx w.x.toNat)] }).updEntry gid ei fun e =>
      { e with held := some h, blocked := true }
  | .ok r s =>
    match if w.y = 0 then none else match s.laneEnd g 0 w.y.toNat 64 .store with
      | .bad _ c => some c
      | _ => none with
    | some c => s.takeTrap gid ei { cause := c, addr := w.y }
    | none =>
      let w := { w with phase := 0
                        data := [(0, .ofNat 32 (field r 8 2)), (1, .ofNat 32 (field r 0x0A 2)),
                          (2, .ofNat 32 (field r 0 4)), (3, .ofNat 32 (field r 4 4))] }
      if fresh then s.queueMark gid ei g w
      else (s.pushFifo gid (.mark w.seq)).setWait gid ei w

/-- BOWCHK (R318). -/
def execBowchk (d a b : BitVec 6) (w : Bool) (s : State) : Result :=
  issueWait { gr := [a.toNat, b.toNat], gw := [d.toNat], trp := w } s
    (fun gid g ei _ =>
      if g.fencing || g.fifoFull then s.block gid ei
      else s.startBowchk gid ei g { instr := .bowchk d a b w, x := g.gAt a.toNat, y := g.gAt b.toNat } true)
    (fun gid g ei e wt =>
      match e.fail with
      | some c =>
        ((s.popMark gid wt.seq).updEntry gid ei fun e => { e with fail := none }).takeTrap gid ei
          { cause := c, addr := wt.heldAt }
      | none =>
        if e.held.isSome then s.block gid ei
        else if wt.phase = 2 then (if g.fifoFull then s.block gid ei else s.startBowchk gid ei g wt false)
        else if g.markTurn wt.seq then s.tryBowchk gid ei g e d wt else s.block gid ei)

/-! ### BOWSET (R320) -/

/-- The traps of BOWSET after those of the set and its descriptor. -/
def State.bowsetTrap (s : State) (g : Group) (x y : DWord) (r : List Byte) : Option TrapInfo :=
  let desc := s.setDesc g.ctx x.toNat
  let tile := y.toNat % 65536
  let bad (a : DWord) : Option TrapInfo := some { cause := .accessViolation, addr := a }
  if (s.sets.at (setKey g.ctx x.toNat) {}).opened then bad (desc + 0x0C)
  else if tile != 0xFFFF && field r 8 2 ≤ tile then bad (desc + 8)
  else if bits y.toNat 63 17 != 0 then bad x
  else none

/-- The byte at a location as the group's FIFO leaves it. -/
def State.byteSeen (s : State) (g : Group) (l : Loc) : Byte :=
  match g.forward l 1 with
  | .take (b :: _) => b
  | _ => match l with
    | .phys pa => s.mem.read pa
    | _ => 0

/-- BOWSET's store, once its checks have passed: into the FIFO, or logged. -/
def State.queueBowset (s : State) (gid ei : Nat) (g : Group) (e : Entry) (i : Instr) (x y : DWord) (r : List Byte) : State :=
  let tile := y.toNat % 65536
  let bow := y.getLsbD 16
  let addr : DWord := .ofNat 64 (field r 0 8 + 16 * tile)
  let src := g.source e i
  let done (s : State) (parts : List StorePart) (logs : List LogLane) : State :=
    (s.updGroup gid fun g =>
      let g := { g with accSeq := g.accSeq + 1, fifo := g.fifo ++ [FifoOp.bowset src x.toNat tile bow parts] }
      g.logLanes src logs).finish gid ei
  if tile = 0xFFFF then done s [] []
  else
    let fin := s.laneEnd g 0 addr.toNat 1 .store
    let s := s.noteEnd g .store fin
    match fin with
    | .bad _ c => s.takeTrap gid ei { cause := c, addr }
    | .loc l _ => done s [{ lane := 0, addr, loc := l, bytes := [bowByte (s.byteSeen g l) bow] }] []
    | .log w _ _ => done s [] [{ lane := 0, addr, data := [if bow then 1 else 0], wait := w }]

/-- BOWSET from its checks; a page of the descriptor holds it. -/
def State.tryBowset (s : State) (gid ei : Nat) (g : Group) (e : Entry) (w : Wait) (fresh : Bool) : State :=
  match s.checkSet g w.x with
  | .bad t s => s.takeTrap gid ei t
  | .held h s =>
    let w := { w with places := [(0, 0, 0, s.setDesc g.ctx w.x.toNat)] }
    (if fresh then s.beginWait gid ei w else s.setWait gid ei w).updEntry gid ei fun e =>
      { e with held := some h, blocked := true }
  | .ok r s =>
    match s.bowsetTrap g w.x w.y r with
    | some t => s.takeTrap gid ei t
    | none => s.queueBowset gid ei g e w.instr w.x w.y r

/-- BOWSET (R320). -/
def execBowset (a b : BitVec 6) (w : Bool) (s : State) : Result :=
  issueWait { gr := [a.toNat, b.toNat], trp := w } s
    (fun gid g ei e =>
      if g.fencing || g.fifoFull then s.block gid ei
      else if !s.mayLog g e then s.queueAt gid ei []
      else s.tryBowset gid ei g e { instr := .bowset a b w, x := g.gAt a.toNat, y := g.gAt b.toNat } true)
    (fun gid g ei e wt =>
      match e.fail with
      | some c => (s.updEntry gid ei fun e => { e with fail := none }).takeTrap gid ei { cause := c, addr := wt.heldAt }
      | none =>
        if e.held.isSome || g.fencing || g.fifoFull then s.block gid ei
        else if !s.mayLog g e then s.queueAt gid ei []
        else s.tryBowset gid ei g e wt false)

/-- A BOWSET is performed at the home dispatcher: its bit is written, and a set that is not open is disarmed (R320). -/
def State.performBowset (s : State) (gid : Nat) (g : Group) (src : Source) (set : Nat) (bow : Bool) (ps : List StorePart) :
    State :=
  let now (p : StorePart) : StorePart := match p.loc with
    | .phys pa => { p with bytes := [bowByte (s.mem.read pa) bow] }
    | _ => p
  let s := s.performStore gid src (ps.map now)
  if (s.sets.at (setKey g.ctx set) {}).opened then s else s.unarm g.ctx set

/-! ### BOWIDLE and BOWWAKE (R327) -/

/-- A form that sets or clears the idle state of a task. -/
def idleForm (idle : Bool) (a b : BitVec 6) (w : Bool) (s : State) : Result :=
  issueMem { gr := [a.toNat, b.toNat], trp := w } s fun gid g ei _ =>
    let r := g.gAt a.toNat
    let set := g.gAt b.toNat
    if r.toNat % 64 != 0 then s.takeTrap gid ei { cause := .misaligned, addr := r }
    else if 65536 ≤ set.toNat || (s.ctx g.ctx).rslen ≤ set.toNat then
      s.takeTrap gid ei { cause := .accessViolation, addr := set }
    else if g.fifoFull then s.block gid ei
    else (s.pushFifo gid (.bowidle set.toNat r idle)).finish gid ei

/-- BOWIDLE (R327). -/
def execBowidle (a b : BitVec 6) (w : Bool) (s : State) : Result := idleForm true a b w s
/-- BOWWAKE (R327). -/
def execBowwake (a b : BitVec 6) (w : Bool) (s : State) : Result := idleForm false a b w s

/-- The idle state of a live task of a set changes (R327). -/
def State.setIdle (s : State) (ctx set : Nat) (record : DWord) (idle : Bool) : State :=
  s.updSet (setKey ctx set) fun t =>
    { t with tasks := t.tasks.map fun k => if k.record == record && !k.finished then { k with idle } else k }

/-! ### The dispatcher (R322) -/

/-- HEAT_DISPATCH: the first eligible task's heat is taken, of the kind it had when the task became eligible: a pass, or a
firing that joins a task queue (R322, R325). -/
def State.dispatchHeat (s : State) (k : Nat) : State :=
  let t := s.sets.at k {}
  match t.eligible with
  | [] => s
  | (r, idle) :: rest =>
    let s := s.updSet k fun t => { t with eligible := rest }
    match t.tasks.find? fun x => x.record == r with
    | none => s
    | some x =>
      if idle then s.endHeat k r true
      else
        let s := s.updSet k fun t => { t with tasks := t.tasks.map fun y => if y.record == r then { y with firing := true } else y }
        match s.placeTask x.task .l (sliceCores t.home) with
        | some s => s
        | none => { s with pending := s.pending ++ [({ ctx := t.ctx, kind := .place x.task (sliceCores t.home) none, lev := .l } : Pending)] }

/-- HEAT_END of the i-th task of a set whose firing has ended (R322). -/
def State.finishHeat (s : State) (k i : Nat) : State :=
  match (s.sets.at k {}).tasks[i]? with
  | none => s
  | some x => match x.ended with
    | none => s
    | some pass => s.endHeat k x.record pass

end Sys2Proof.Machine
end

