-- ==== Sys2Proof/Machine/Control.lean ====
section
/-! DEFINITION. Sys2Proof/Machine/Control.lean: branches, the ends of lanes and groups, prefixes, TRAP, ERET, HALT and the
writes of special registers (R50 to R53, R72, R73, R271 to R280, R326, R374, R384 to R386, R430). -/
namespace Sys2Proof.Machine

/-! ### Branches (R273 to R276) -/

/-- The entry with no latched state, at a new place. -/
def Entry.goto (e : Entry) (pc : DWord) (pri : BitVec 4) : Entry :=
  { e with pc, pri, pre := {}, wait := none, blocked := false, queued := none, resume := 0 }

/-- Lanes of a bundle whose predicate takes the branch. -/
def taken (g : Group) (p : Nat) (n : Bool) (m : Mask) : Mask := (if n then ~~~ g.pAt p else g.pAt p) &&& m

/-- The frontier after BR or CALL by entry ei (R273). -/
def branchEntries (es : List Entry) (ei : Nat) (e : Entry) (t : Mask) (tgt : DWord) (pri : BitVec 4) : List Entry :=
  if t = e.mask then mergeAll (setAt es ei fun x => x.goto tgt pri)
  else if t = 0 then mergeAll (setAt es ei Entry.advance)
  else mergeAll (setAt es ei (fun x => { x.advance with mask := x.mask &&& ~~~ t }) ++ [{ pc := tgt, pri, mask := t }])

/-- A branch that takes some lanes only, where U asks for one way (R273). -/
def splits (u : Bool) (t m : Mask) : Bool := u && t != 0 && t != m

/-- BR (R271, R273). -/
def execBr (p : BitVec 6) (n u : Bool) (r : BitVec 4) (o : BitVec 13) (s : State) : Result :=
  issue { pr := [p.toNat] } s fun gid g ei e =>
    let t := taken g p.toNat n e.mask
    if splits u t e.mask then s.takeTrap gid ei { cause := .uniformViolation }
    else s.putGroup gid { g with entries := branchEntries g.entries ei e t (e.target o) r }

/-- Lanes of a set whose return stack is full. -/
def fullStacks (g : Group) (m : Mask) : List (Fin 128) := (lanesIn m).filter fun l => 16 ≤ g.ret[l].length

/-- CALL (R271, R273). -/
def execCall (p : BitVec 6) (n u : Bool) (r : BitVec 4) (o : BitVec 13) (s : State) : Result :=
  issue { pr := [p.toNat] } s fun gid g ei e =>
    let t := taken g p.toNat n e.mask
    if splits u t e.mask then s.takeTrap gid ei { cause := .uniformViolation }
    else match fullStacks g t with
      | l :: _ => s.takeTrap gid ei { cause := .accessViolation, addr := e.wordPc, lane := l.val }
      | [] => s.putGroup gid
          { g with entries := branchEntries g.entries ei e t (e.target o) r
                   ret := setLanes g.ret t fun l => (e.wordPc + 4, e.pri) :: g.ret[l] }

/-- Lanes grouped by target, in the order in which the targets first appear, with the highest priority of each. -/
def groupLanes : List (Fin 128 × DWord × BitVec 4) → List (DWord × Mask × BitVec 4)
  | [] => []
  | (l, pc, pr) :: rest =>
    let out := groupLanes rest
    if out.any fun x => x.1 == pc then
      out.map fun x =>
        if x.1 == pc then (pc, laneBit l.val ||| x.2.1, if x.2.2.toNat < pr.toNat then pr else x.2.2) else x
    else (pc, laneBit l.val, pr) :: out

/-- Entry ei replaced by one entry for each target. -/
def scatter (es : List Entry) (ei : Nat) (tgts : List (DWord × Mask × BitVec 4)) : List Entry :=
  mergeAll (es.eraseIdx ei ++ tgts.map fun t => { pc := t.1, pri := t.2.2, mask := t.2.1 })

/-- RET (R274). -/
def execRet (s : State) : Result :=
  issue {} s fun gid g ei e =>
    match (lanesIn e.mask).find? fun l => g.ret[l].isEmpty with
    | some l => s.takeTrap gid ei { cause := .accessViolation, addr := e.wordPc, lane := l.val }
    | none =>
      let tgts := groupLanes ((lanesIn e.mask).map fun l => (l, (g.ret[l].headD (0, 0)).1, (g.ret[l].headD (0, 0)).2))
      s.putGroup gid
        { g with entries := scatter g.entries ei tgts, ret := setLanes g.ret e.mask fun l => g.ret[l].tail }

/-- BRX: A even (R275). -/
def execBrx (a : BitVec 7) (r : BitVec 4) (u w : Bool) (s : State) : Result :=
  issue { vr := [a.toNat, a.toNat + 1], trp := w } s fun gid g ei e =>
    let t := fun l => g.vPair a.toNat l
    match (lanesIn e.mask).find? fun l => (t l).toNat % 4 != 0 with
    | some l => s.takeTrap gid ei { cause := .misaligned, addr := t l, lane := l.val }
    | none =>
      let tgts := groupLanes ((lanesIn e.mask).map fun l => (l, t l, r))
      if u && 1 < tgts.length then s.takeTrap gid ei { cause := .uniformViolation }
      else s.putGroup gid { g with entries := scatter g.entries ei tgts }

/-- GBR (R276). -/
def execGbr (q : BitVec 4) (n : Bool) (r : BitVec 4) (o : BitVec 16) (s : State) : Result :=
  issue { qr := [q.toNat] } s fun gid g ei e =>
    if g.qAt q.toNat != n then
      s.putGroup gid { g with entries := mergeAll (setAt g.entries ei fun x => x.goto (e.target o) r) }
    else s.finish gid ei

/-! ### NOP and YIELD (R279, R280) -/

/-- NOP (R280). -/
def execNop (s : State) : Result := issueRegs {} s fun g _ => g

/-- Both round-robin orders of a core move past a group (R261, R279). -/
def State.passGroup (s : State) (gid : Nat) : State :=
  s.updCore (gid / 96) fun c => { c with laneRR := gid % 96, uniRR := gid % 96 }

/-- YIELD (R279). -/
def execYield (s : State) : Result :=
  issue {} s fun gid _ ei _ =>
    ((s.updEntry gid ei fun e => { e with yield := true, yieldAt := s.cycle }).finish gid ei).passGroup gid

/-! ### EXIT, GEXIT and BOWPASS (R277, R278, R326) -/

/-- The lane's access is lost and its trap not taken. -/
def LogLane.lost (l : LogLane) : Bool :=
  match l.wait with
  | .lost _ _ => true
  | _ => false

/-- The oldest failure a final exit reports: a copy's or a LOST entry's, and the group with it cleared (R277). -/
def Group.exitFailure (g : Group) : Option (TrapInfo × Group) :=
  let lost := (g.logOrder.filterMap fun i =>
    match vecGet g.oplog i none with
    | none => none
    | some en =>
      (en.lanes.findSome? fun l => match l.wait with
        | .lost c at_ => some (c, at_, l.addr, l.lane.val)
        | _ => none).map fun x => (i, x)).head?
  match g.batchFails, lost with
  | [], none => none
  | f :: rest, none => some ({ cause := f.cause, addr := f.addr }, { g with batchFails := rest })
  | [], some (i, c, _, a, l) => some ({ cause := c, addr := a, lane := l }, g.dropLanes i LogLane.lost)
  | f :: rest, some (i, c, at_, a, l) =>
    if f.at_ ≤ at_ then some ({ cause := f.cause, addr := f.addr }, { g with batchFails := rest })
    else some ({ cause := c, addr := a, lane := l }, g.dropLanes i LogLane.lost)

/-- A store or an atomic of the group is out that a level of its launch orders at its scope (R169, R288). -/
def State.farStores (s : State) (gid : Nat) (g : Group) : Bool :=
  (s.crew g.crew).params.levels.any fun l => s.txs.any fun t => t.gid == gid && t.kind != 0 && s.txScope t ≤ l.2.2

/-- Every condition of R277 holds, and of a level's release at .ten or .sys R288's. -/
def State.drained (s : State) (gid : Nat) (g : Group) : Bool :=
  !s.farStores gid g && g.fifo.isEmpty && g.oplog.all (·.isNone) && g.engq.isEmpty && g.posts.isEmpty &&
    !((s.core g.core).copies.any fun c => c.2.gid == gid)

/-- A pending final exit tested: it traps, ends the group, or goes on waiting (R277). -/
def State.finalTest (s : State) (gid : Nat) : State :=
  match s.groups.find gid with
  | none => s
  | some g =>
    match g.exitFailure with
    | some (t, g') =>
      (s.putGroup gid { g' with entries := g'.entries.map fun e => { e with wait := none } }).takeTrap gid 0 t
    | none => if s.drained gid g then s.endGroup gid else s

/-- Begin a final exit of a frontier whose one entry is e (R277). -/
def State.finalExit (s : State) (gid : Nat) (g : Group) (e : Entry) : State :=
  (s.putGroup gid { g with
    entries := [{ e with wait := some { start := s.cycle }, pre := {}, blocked := false }], finalExit := true }).finalTest gid

/-- A pending final exit runs again: nothing new leaves the entry blocked (R264). -/
def State.exitAgain (s : State) (gid ei : Nat) (g : Group) : State :=
  if g.exitFailure.isNone && !s.drained gid g then s.block gid ei else s.finalTest gid

/-- EXIT (R277). -/
def execExit (s : State) : Result :=
  issue {} s fun gid g ei e =>
    if g.finalExit then s.exitAgain gid ei g
    else if 1 < g.entries.length then
      s.putGroup gid { g with entries := mergeAll (g.entries.eraseIdx ei), exits := g.exits ++ [(g.accSeq, e.mask)] }
    else s.finalExit gid g e

/-- The form writes the words it waits for, and not their tags alone. -/
def writesWord : Instr → Bool
  | .ste _ _ _ _ => true
  | _ => false

/-- Words and tags put back as a withdrawn wait found them, the last change first (R199). -/
def State.undo (s : State) (w : Wait) : State :=
  w.undo.foldl (fun s u => s.updCore u.1 fun c =>
    { c with mem := if writesWord w.instr then c.mem.writeN (4 * u.2.1) 4 u.2.2.1.toNat else c.mem
             emptyTags := if u.2.2.2 then c.emptyTags.filter (· != u.2.1) else insertNat u.2.1 c.emptyTags }) s

/-- The V register an LDF has emptied. -/
def ldfDest : Instr → Option Nat
  | .ldf d _ _ _ _ => some d.toNat
  | _ => none

/-- A tag wait is withdrawn: its words and tags put back, its destination full again, its place in the FIFO given up
(R199). -/
def State.undoTag (s : State) (gid : Nat) (m : Mask) (w : Wait) : State :=
  (s.undo w).updGroup gid fun g =>
    let g := { g with fifo := g.fifo.filter fun o => match o with
      | .ste seq _ => seq != w.seq
      | _ => true }
    match ldfDest w.instr with
    | some d => g.fullV d m
    | none => g

/-- The waits of the other entries withdrawn with no effect, those of a saved frontier too (R278; log 48). -/
def State.withdraw (s : State) (gid : Nat) (g : Group) (ei : Nat) : State :=
  (g.entries.eraseIdx ei ++ g.saved).foldl (fun s e => match e.wait with
    | some w => (s.undoTag gid e.mask w).updCrew g.crew fun c => { c with claims := c.claims.filter fun x => x != (gid, w.seq) }
    | none => s) s

/-- An instruction that waits in its entry has issued with an effect on more than its own group, which GEXIT leaves it
(R278; log 48). -/
def Wait.goesOn (w : Wait) : Bool :=
  match w.instr with
  | .tspawn _ _ => w.phase == 0
  | .bowchk _ _ _ _ => w.phase == 0
  | .rtclose _ _ _ => w.phase != 0
  | .fseal _ _ _ | .tlbiVa _ _ _ | .tlbiAsid _ _ | .tlbiVf _ _ | .tlbiIpa _ _ _ | .tlbiS2 _ _ => true
  | _ => false

/-- The waits of a group's other entries that still take their effect, in its issue order. -/
def Group.goingOn (g : Group) (ei : Nat) : List Wait :=
  let ws := (g.entries.eraseIdx ei ++ g.saved).filterMap fun e => e.wait.filter Wait.goesOn
  ws.foldl (fun acc w => acc.takeWhile (fun x => x.seq < w.seq) ++ w :: acc.dropWhile fun x => x.seq < w.seq) []

/-- The other entries of a frontier that GEXIT ends: held FPOSTs send their refused lanes no more, and what still takes its
effect does so from the store FIFO (R278). -/
def Group.endOthers (g : Group) (ei : Nat) (m : Mask) : Group :=
  let ws := g.goingOn ei
  let marked (seq : Nat) : Option Wait := ws.find? fun w => w.seq == seq
  let fifo := g.fifo.filterMap fun o => match o with
    | .mark seq => (marked seq).map fun w => FifoOp.late w none
    | o => some o
  let places := g.fifo.filterMap fun o => match o with
    | .mark seq => some seq
    | _ => none
  { g with posts := g.posts.filter fun p => p.pd != 0
           fifo := fifo ++ (ws.filter fun w => !places.contains w.seq).map fun w => FifoOp.late w none
           exits := g.exits ++ [(g.accSeq, ~~~ m)] }

/-- GEXIT (R278). -/
def execGexit (s : State) : Result :=
  issue {} s fun gid g ei e =>
    if g.finalExit then s.exitAgain gid ei g
    else
      let s := s.withdraw gid g ei
      s.finalExit gid ((s.groups.at gid g).endOthers ei e.mask) e

/-- BOWPASS (R326). -/
def execBowpass (w : Bool) (s : State) : Result :=
  issue { trp := w } s fun gid g ei e =>
    match (s.crew g.crew).origin with
    | .firing _ _ =>
      if g.finalExit then s.exitAgain gid ei g
      else
        let s := s.withdraw gid g ei
        s.finalExit gid { (s.groups.at gid g).endOthers ei e.mask with pass := true } e
    | _ => s.takeTrap gid ei { cause := .accessViolation }

/-! ### Prefixes (R50 to R53) -/

/-- REP: latched; a REP after a prefix is no legal target (R53). -/
def execRep (c : BitVec 6) (x y z : BitVec 3) (s : State) : Result :=
  issue {} s fun gid _ ei e =>
    if e.pre.words != 0 then s.takeTrap gid ei { cause := .illegalOpcode, pc := some e.wordPc }
    else s.updEntry gid ei fun e =>
      { e with pre := { rep := some (c.toNat, x.toNat, y.toNat, z.toNat), idx := e.resume, words := 1 } }

/-- LIT: latched; a LIT after a LIT is no legal target (R53). -/
def execLit (l : BitVec 25) (s : State) : Result :=
  issue {} s fun gid _ ei e =>
    if e.pre.lit.isSome then s.takeTrap gid ei { cause := .illegalOpcode, pc := some e.wordPc }
    else s.updEntry gid ei fun e => { e with pre := { e.pre with lit := some l, words := e.pre.words + 1 } }

/-! ### TRAP, ERET, HALT (R374, R384, R386) -/

/-- TRAP (R384). -/
def execTrap (c : BitVec 16) (s : State) : Result :=
  issue {} s fun gid _ ei _ => s.takeTrap gid ei { cause := .software, code := c.toNat }

/-- The entry of a final exit that ERET leaves (R374). -/
def Group.eretExit (g : Group) (now : Nat) : Entry :=
  match g.saved with
  | e :: _ => { (e.turn now) with pc := g.tpc, wait := none }
  | [] => { pc := g.tpc }

/-- ERET; below level S it is no instruction (R48, R374). -/
def execEret (s : State) : Result :=
  match s.acting with
  | none => .fault .noActor
  | some (_, g0, _, _) =>
    issue { illegal := g0.priv == .l } s fun gid g ei _ =>
      if !g.inHandler then s.takeTrap gid ei { cause := .accessViolation }
      else if !g.tinfo.getLsbD 2 && g.tpc.toNat % 4 != 0 then s.takeTrap gid ei { cause := .misaligned, addr := g.tpc }
      else
        let g' := g.eret s.cycle
        if g'.entries.isEmpty then s.finalExit gid g' (g.eretExit s.cycle) else s.putGroup gid g'

/-- The die of a management core. R19 gives each die one and numbers none: core k is taken to be of die k % 4 (the model's
choice; log 63). -/
def mgmtDie (core : Nat) : Nat := core % 4

/-- HALT; at L and S it is no instruction (R386). -/
def execHalt (s : State) : Result :=
  match s.acting with
  | none => .fault .noActor
  | some (_, g0, _, _) =>
    issue { illegal := g0.priv != .h } s fun gid g ei _ =>
      let pending := (vecGet s.dies (mgmtDie g.core) {}).mevent != 0
      (if pending then s else s.updGroup gid fun g => { g with halted := true }).finish gid ei

/-! ### Writes of special registers (R385, R430) -/

/-- The number is writable at a level (R67, R371, R430). -/
def srWritable (n : Nat) (lev : Priv) : Bool :=
  match lev with
  | .l => false
  | .s => [0x021, 0x023, 0x040, 0x041, 0x042, 0x043, 0x044, 0x045, 0x054, 0x055, 0x056, 0x058].contains n
  | .h => [0x020, 0x021, 0x023, 0x040, 0x041, 0x042, 0x043, 0x044, 0x045, 0x054, 0x055, 0x056, 0x058, 0x800].contains n

/-- SR.WDOG after a write (R72). -/
def storedWdog (v : DWord) : BitVec 48 := if v.toNat % 2 ^ 48 < 4096 then 4096 else .ofNat 48 v.toNat

/-- A group after a write of one of its own special registers (R385). -/
def Group.writeSr (g : Group) (n : Nat) (v : DWord) : Group :=
  match n with
  | 0x021 => { g with arith := v.truncate 7 }
  | 0x023 => { g with wdog := storedWdog v }
  | 0x040 => { g with tcause := v.truncate 32 &&& 0xFFFFFF }
  | 0x041 => { g with tpc := v }
  | 0x042 => { g with taddr := v }
  | 0x043 => { g with tlanes := (g.tlanes &&& (BitVec.allOnes 64).zeroExtend 128 <<< 64) ||| v.zeroExtend 128 }
  | 0x044 => { g with tlanes := (g.tlanes &&& (BitVec.allOnes 64).zeroExtend 128) ||| (v.zeroExtend 128 <<< 64) }
  | 0x045 => { g with trep := v.truncate 7 }
  | 0x054 => { g with tsavea := v }
  | 0x055 => { g with tsaveb := v }
  | 0x058 => { g with tfsel := v.truncate 7 }
  | _ => g

/-- A write of a special register by a group (R385). -/
def State.writeSr (s : State) (gid : Nat) (g : Group) (n : Nat) (v : DWord) : State :=
  match n with
  | 0x020 => s.updVf (ctxVf g.ctx) fun f => { f with clock := v.toNat }
  | 0x056 => if v = 0 then s else s.killContext g.ctx 2 g.trapCause g.tpc
  | 0x800 =>
    { s with dies := vecMod s.dies (mgmtDie g.core) fun d => { d with mevent := d.mevent &&& ~~~ v.truncate 32 } }
  | n => s.putGroup gid (g.writeSr n v)

/-- GSRW; a number not writable at the level is no instruction (R48, R385). -/
def execGsrw (h a l : BitVec 6) (w : Bool) (s : State) : Result :=
  let n := 64 * h.toNat + l.toNat
  match s.acting with
  | none => .fault .noActor
  | some (_, g0, _, _) =>
    issue { gr := [a.toNat], trp := w, illegal := !srWritable n g0.priv } s fun gid g ei _ =>
      if srWaits n && g.lanesBusy then s.block gid ei else (s.writeSr gid g n (g.gAt a.toNat)).finish gid ei

/-- The write of one register by the acting group, where it may write it. -/
def srStep (n : Nat) (v : DWord) (s : State) : Result :=
  match s.acting with
  | none => .next s
  | some (gid, g, _, _) => .next (if srWritable n g.priv then s.writeSr gid g n v else s)

/-- WRITE_SR_TKILL (R375). -/
def execWriteSrTkill (v : DWord) (s : State) : Result := srStep 0x056 v s
/-- WRITE_SR_ARITH (R385). -/
def execWriteSrArith (v : DWord) (s : State) : Result := srStep 0x021 v s
/-- WRITE_SR_WDOG (R72). -/
def execWriteSrWdog (v : DWord) (s : State) : Result := srStep 0x023 v s
/-- WRITE_SR_CLOCK (R73). -/
def execWriteSrClock (v : DWord) (s : State) : Result := srStep 0x020 v s
/-- WRITE_SR_TFSEL (R373). -/
def execWriteSrTfsel (v : DWord) (s : State) : Result := srStep 0x058 v s
/-- WRITE_SR_MEVENT (R430). -/
def execWriteSrMevent (v : DWord) (s : State) : Result := srStep 0x800 v s

end Sys2Proof.Machine
end

