-- ==== Sys2Proof/Machine/Engine.lean ====
section
/-! DEFINITION. Sys2Proof/Machine/Engine.lean: the matrix engine: parameter blocks, the fused K-step, links, queues and leave, MMA,
MMAZ, ACLD, ACST and MMWAIT, and the steps of the engine (R133 to R160). -/
namespace Sys2Proof.Machine

/-! ### The grid (R13) -/

/-- The cluster at a place of the grid. -/
def clusterAt (x y : Nat) : Nat := 8 * (x / 4 + 2 * (y / 2)) + (x % 4 + 4 * (y % 2))

/-- The neighbour of a cluster over a link: 0 west, 1 east, 2 north, 3 south (R137). -/
def neighbour (c link : Nat) : Nat :=
  let d := c / 8
  let x := 4 * (d % 2) + c % 4
  let y := 2 * (d / 2) + c % 8 / 4
  match link with
  | 0 => clusterAt ((x + 7) % 8) y
  | 1 => clusterAt ((x + 1) % 8) y
  | 2 => clusterAt x ((y + 3) % 4)
  | _ => clusterAt x ((y + 1) % 4)

/-- The link by which the far cluster sees this one. -/
def farLink (link : Nat) : Nat := if link % 2 = 0 then link + 1 else link - 1

/-! ### Operands (R136 to R141) -/

/-- The parameter block of 64 bytes (R136). -/
def parseBlock (r : List Byte) : MmaBlock :=
  { m := field r 0 2, n := field r 2 2, k := field r 4 4, aaddr := field r 8 4, astride := field r 0xC 4
    baddr := field r 0x10 4, bstride := field r 0x14 4, row0 := field r 0x18 2, col0 := field r 0x1A 2
    ea := .ofNat 8 (field r 0x1C 1), eb := .ofNat 8 (field r 0x1D 1), srca := .ofNat 8 (field r 0x1E 1)
    srcb := .ofNat 8 (field r 0x1F 1), chain := .ofNat 8 (field r 0x20 1) }

/-- The K-step of one format (R140). -/
def kStep1 (w : Word) : Nat :=
  match slotCode w with
  | 0 => 1
  | 1 | 2 => 4
  | 3 | 4 => 8
  | 5 | 6 => 32
  | 7 => 16
  | 8 => 8
  | _ => 1

/-- The K-step of an operation. -/
def kStep (a b : Word) : Nat := min (kStep1 a) (kStep1 b)

/-- The slot holds a MERE format. -/
def isMere (w : Word) : Bool := 6 ≤ slotCode w && slotCode w ≤ 8

/-- Bytes of k elements of a slot's format (R138). -/
def rowBytes (w : Word) (k : Nat) : Nat :=
  match slotFmt w with
  | .mere m => k / 16 * mereBytes m
  | .flt f => (k * f.width + 7) / 8
  | _ => k

/-- KIND, LINK, FWD and FLINK of a source byte (R137). -/
def srcKind (b : BitVec 8) : Nat := b.toNat % 4
/-- LINK. -/
def srcLink (b : BitVec 8) : Nat := b.toNat / 4 % 4
/-- FWD. -/
def srcFwd (b : BitVec 8) : Bool := b.getLsbD 4
/-- FLINK. -/
def srcFlink (b : BitVec 8) : Nat := b.toNat / 32 % 4
/-- CIN. -/
def chainIn (b : BitVec 8) : Bool := b.getLsbD 0
/-- ILINK. -/
def chainIlink (b : BitVec 8) : Nat := b.toNat / 2 % 4
/-- COUT. -/
def chainOut (b : BitVec 8) : Bool := b.getLsbD 3
/-- OLINK. -/
def chainOlink (b : BitVec 8) : Nat := b.toNat / 16 % 4

/-- A link whose far cluster belongs to the virtual function (R139). -/
def VF.linkOk (v : VF) (cluster link : Nat) : Bool := v.clusters.contains (neighbour cluster link)

/-- A source byte is in order. -/
def VF.srcOk (v : VF) (cluster : Nat) (b : BitVec 8) : Bool :=
  !b.getLsbD 7 && srcKind b ≤ 1 && (srcKind b == 0 || v.linkOk cluster (srcLink b)) &&
    (!srcFwd b || v.linkOk cluster (srcFlink b))

/-- The rows of a crew's run (R134). -/
def Crew.rows (c : Crew) : Nat := 128 * c.params.bands

/-- The first offset of a block whose field breaks R139 step 3. -/
def blockBad (v : VF) (c : Crew) (zero : Bool) (sa sb : Word) (r : List Byte) : Option Nat :=
  let b := parseBlock r
  let ks := kStep sa sb
  ([(0x00, 1 ≤ b.m && b.m ≤ 1024), (0x02, 1 ≤ b.n && b.n ≤ 1024),
    (0x04, 1 ≤ b.k && b.k ≤ 2 ^ 24 && b.k % ks == 0 && (!(isMere sa || isMere sb) || b.k % 16 == 0)),
    (0x18, b.row0 + b.m ≤ c.rows), (0x1A, b.col0 + b.n ≤ 1024),
    (0x1E, v.srcOk (c.core / 8) b.srca), (0x1F, v.srcOk (c.core / 8) b.srcb),
    (0x20, b.chain.toNat < 64 && !(zero && chainIn b.chain) &&
      (!chainIn b.chain || v.linkOk (c.core / 8) (chainIlink b.chain)) &&
      (!chainOut b.chain || v.linkOk (c.core / 8) (chainOlink b.chain))),
    (0x21, field r 0x21 31 == 0)].find? fun x => !x.2).map fun x => x.1

/-- The device core and scratchpad range of an operand of n rows (R143). -/
def operandRange (cluster addr stride n bytes : Nat) : Nat × Nat × Nat :=
  (8 * cluster + bits addr 22 20, addr % 2 ^ 20, addr % 2 ^ 20 + (n - 1) * stride + bytes)

/-- The operand lies in the allocation of one crew of the context on that core; offsets count from the core's scratchpad. -/
def State.operandOk (s : State) (ctx cluster addr stride n bytes : Nat) : Bool :=
  let (core, lo, hi) := operandRange cluster addr stride n bytes
  bits addr 31 23 == 0 && (s.crewsOn core).any fun c =>
    c.2.ctx == ctx && c.2.sbase ≤ lo && hi ≤ c.2.sbase + c.2.params.scratch

/-- The failure of R139 step 4, with the offset of its field. -/
def State.operandsBad (s : State) (ctx cluster : Nat) (b : MmaBlock) (sa sb : Word) : Option (Cause × Nat) :=
  let a := srcKind b.srca == 0
  let b' := srcKind b.srcb == 0
  if a && !s.operandOk ctx cluster b.aaddr b.astride b.m (rowBytes sa b.k) then some (.accessViolation, 0x08)
  else if b' && !s.operandOk ctx cluster b.baddr b.bstride b.n (rowBytes sb b.k) then some (.accessViolation, 0x10)
  else if a && b.aaddr % 16 != 0 then some (.misaligned, 0x08)
  else if b.astride % 16 != 0 then some (.misaligned, 0x0C)
  else if b.baddr % 16 != 0 then some (.misaligned, 0x10)
  else if b.bstride % 16 != 0 then some (.misaligned, 0x14)
  else none

/-! ### Values (R141, R142) -/

/-- The code of element k in the bytes of a row; a MERE element's whole record with its place (R138). -/
def elemCode (w : Word) (row : List Byte) (k : Nat) : Nat :=
  match slotFmt w with
  | .mere m => field row (k / 16 * mereBytes m) (mereBytes m) * 16 + k % 16
  | .flt .e2m1 => field row (k / 2) 1 / 16 ^ (k % 2) % 16
  | .flt f => field row (k * (f.width / 8)) (f.width / 8)
  | _ => field row k 1

/-- The exact value of an operand element (R141). -/
def elemVal (w : Word) (e : BitVec 8) (code : Nat) : Val :=
  let v := match slotFmt w with
    | .mere m => mereDecode m (code / 16) (code % 16)
    | .flt f => decodeF f code
    | _ => .nan
  v.scale (e.toInt - slotBias w)

/-- The exact sum of R142: NaN, then infinities, then zero's sign. -/
def fusedSum (ts : List Val) : Val :=
  if ts.any (·.isNan) then .nan
  else if ts.any (fun t => t == .inf false) && ts.any (fun t => t == .inf true) then .nan
  else if ts.any (fun t => t == .inf false) then .inf false
  else if ts.any (fun t => t == .inf true) then .inf true
  else match ts with
    | [] => .fin false 0 0
    | t :: rest => rest.foldl (fun a b => (addV a b).1) t

/-- One K-step of one element: RNE into FP32 of the exact sum (R141). -/
def kStepAcc (acc : Nat) (products : List Val) : Nat := (toF32 0 (fusedSum (decodeF .f32 acc :: products))).1

/-! ### Links (R145) -/

/-- The first stream of a kind received on a link. -/
def Cluster.stream (c : Cluster) (link kind : Nat) : Option LinkStream :=
  (c.inbox.find? fun x => x.1 == link && x.2.kind == kind).map fun x => x.2

/-- A value a stream has brought. -/
def LinkStream.at_ (t : LinkStream) (i k : Nat) : Option Nat := (t.data.find? fun x => x.1 == (i, k)).map fun x => x.2

/-- Where the codes of an operand come from: scratchpad rows, or a stream. -/
structure Feed where
  rows : Nat → List Byte
  strm : Option LinkStream
  link : Bool

/-- A code of an operand, when it is there. -/
def Feed.code (f : Feed) (w : Word) (i k : Nat) : Option Nat :=
  if f.link then f.strm.bind fun t => t.at_ i k else some (elemCode w (f.rows i) k)

/-- The feed of an operand (R138, R143, R145): scratchpad bytes as they stand at the turn, where a racing store of another
group may leave old or new data in each 16-byte unit (R152; log 10). -/
def State.feed (s : State) (cluster : Nat) (src : BitVec 8) (kind addr stride n bytes : Nat) : Feed :=
  let (core, lo, _) := operandRange cluster addr stride n bytes
  { rows := fun i => s.scratchBytes core (lo + i * stride) bytes
    link := srcKind src == 1
    strm := if srcKind src == 1 then (s.cluster cluster).stream (srcLink src) kind else none }

/-- A header differs from what the receiver names (R145). -/
def headerBad (o : EngOp) (t : LinkStream) : Bool :=
  match t.kind with
  | 0 => !(t.slot == o.slotA && t.scale == o.blk.ea && t.k == o.blk.k && t.m == o.blk.m)
  | 1 => !(t.slot == o.slotB && t.scale == o.blk.eb && t.k == o.blk.k && t.n == o.blk.n)
  | _ => !(t.m == o.blk.m && t.n == o.blk.n)

/-- The streams an operation takes: link and kind. -/
def EngOp.inlets (o : EngOp) : List (Nat × Nat) :=
  (if srcKind o.blk.srca == 1 then [(srcLink o.blk.srca, 0)] else []) ++
  (if srcKind o.blk.srcb == 1 then [(srcLink o.blk.srcb, 1)] else []) ++
  (if chainIn o.blk.chain then [(chainIlink o.blk.chain, 2)] else [])

/-- The operation that may take a turn: the head of a group's queue, granted, drained and not ended. -/
def Group.turnOp (g : Group) : Option EngOp :=
  match g.engq with
  | o :: _ => if o.granted.isSome && o.drained && o.status.isNone then some o else none
  | [] => none

/-- The contexts whose operations take a kind of stream that a cluster sends on a link. -/
def State.takers (s : State) (cluster link kind : Nat) : List Nat :=
  s.groups.filterMap fun x =>
    if x.2.core / 8 == neighbour cluster link && x.2.turnOp.any fun o => o.inlets.contains (farLink link, kind)
    then some x.2.ctx else none

/-- Add values to a sender's stream into a far cluster, opening it with its header. -/
def State.sendStream (s : State) (cluster link : Nat) (head : LinkStream) (xs : List ((Nat × Nat) × Nat)) : State :=
  s.updCluster (neighbour cluster link) fun c =>
    let mine (x : Nat × LinkStream) : Bool :=
      x.1 == farLink link && x.2.gid == head.gid && x.2.seq == head.seq && x.2.born == head.born && x.2.kind == head.kind
    if c.inbox.any mine then
      { c with inbox := c.inbox.map fun x => if mine x then (x.1, { x.2 with data := x.2.data ++ xs }) else x }
    else { c with inbox := c.inbox ++ [(farLink link, { head with data := xs })] }

/-! ### Tiles (R141, R149) -/

/-- Columns of result tiles. -/
def MmaBlock.tileCols (b : MmaBlock) : Nat := (b.n + 127) / 128

/-- Result tiles in all. -/
def MmaBlock.tiles (b : MmaBlock) : Nat := (b.m + 127) / 128 * b.tileCols

/-- The rows and columns of tile t. -/
def MmaBlock.tileRows (b : MmaBlock) (t : Nat) : List Nat :=
  let r := t / b.tileCols
  (List.range (min 128 (b.m - 128 * r))).map fun i => 128 * r + i
/-- The columns. -/
def MmaBlock.tileColumns (b : MmaBlock) (t : Nat) : List Nat :=
  let c := t % b.tileCols
  (List.range (min 128 (b.n - 128 * c))).map fun j => 128 * c + j

/-- The accumulator key of an element of a crew's run. -/
def Crew.accKey (c : Crew) (row col : Nat) : Nat := 1024 * (128 * c.band0 + row) + col

/-- An accumulator element. -/
def Cluster.accAt (c : Cluster) (k : Nat) : Nat := ((c.acc.find k).getD 0).toNat

/-- Set an accumulator element; +0 is not listed. -/
def Cluster.setAcc (c : Cluster) (k v : Nat) : Cluster :=
  { c with acc := if v = 0 then c.acc.del k else c.acc.put k (.ofNat 32 v) }

/-- What the engine reads for an operation. -/
structure Feeds where
  a : Feed
  b : Feed
  chain : Option LinkStream

/-- The initial accumulator of an element (R141). -/
def EngOp.start (o : EngOp) (c : Crew) (cl : Cluster) (f : Feeds) (i j : Nat) : Option Nat :=
  if o.kind == .mmaz then some 0
  else if chainIn o.blk.chain then f.chain.bind fun t => t.at_ i j
  else some (cl.accAt (c.accKey (o.blk.row0 + i) (o.blk.col0 + j)))

/-- The products of K-step n of element (i, j), when every operand element is there. -/
def EngOp.products (o : EngOp) (f : Feeds) (ks n i j : Nat) : Option (List Val) :=
  ((List.range ks).map fun d =>
    match f.a.code o.slotA i (n * ks + d), f.b.code o.slotB j (n * ks + d) with
    | some x, some y => some (mulV (elemVal o.slotA o.blk.ea x) (elemVal o.slotB o.blk.eb y)).1
    | _, _ => none).foldr (fun x acc => match x, acc with
      | some v, some vs => some (v :: vs)
      | _, _ => none) (some [])

/-- The accumulator of an element after its first n K-steps; none while something has not come. -/
def EngOp.element (o : EngOp) (c : Crew) (cl : Cluster) (f : Feeds) (i j : Nat) : Nat → Option Nat
  | 0 => o.start c cl f i j
  | n + 1 =>
    match o.element c cl f i j n, o.products f (kStep o.slotA o.slotB) n i j with
    | some acc, some ps => some (kStepAcc acc ps)
    | _, _ => none

/-- The values of a tile after n K-steps; none while something has not come. -/
def EngOp.tileVals (o : EngOp) (c : Crew) (cl : Cluster) (f : Feeds) (t n : Nat) : Option (List ((Nat × Nat) × Nat)) :=
  ((o.blk.tileRows t).flatMap fun i => (o.blk.tileColumns t).map fun j => ((i, j), o.element c cl f i j n)).foldr
    (fun x acc => match x.2, acc with
      | some v, some vs => some ((x.1, v) :: vs)
      | _, _ => none) (some [])

/-- The feeds of an operation. -/
def State.feeds (s : State) (cluster : Nat) (o : EngOp) : Feeds :=
  { a := s.feed cluster o.blk.srca 0 o.blk.aaddr o.blk.astride o.blk.m (rowBytes o.slotA o.blk.k)
    b := s.feed cluster o.blk.srcb 1 o.blk.baddr o.blk.bstride o.blk.n (rowBytes o.slotB o.blk.k)
    chain := if chainIn o.blk.chain then (s.cluster cluster).stream (chainIlink o.blk.chain) 2 else none }

/-- The codes of an operand's rows, over all of K. -/
def codesOf (f : Feed) (w : Word) (rows : List Nat) (k : Nat) : List ((Nat × Nat) × Nat) :=
  rows.flatMap fun i => (List.range k).map fun d => ((i, d), (f.code w i d).getD 0)

/-- Write a tile's values to the accumulator store. -/
def State.landTile (s : State) (cr : Crew) (o : EngOp) (vs : List ((Nat × Nat) × Nat)) : State :=
  s.updCluster (cr.core / 8) fun c =>
    vs.foldl (fun c v => c.setAcc (cr.accKey (o.blk.row0 + v.1.1) (o.blk.col0 + v.1.2)) v.2) c

/-- The streams that tile t sends: link and kind. -/
def EngOp.outlets (o : EngOp) (t : Nat) : List (Nat × Nat) :=
  (if srcFwd o.blk.srca && t % o.blk.tileCols = 0 then [(srcFlink o.blk.srca, 0)] else []) ++
  (if srcFwd o.blk.srcb && t / o.blk.tileCols = 0 then [(srcFlink o.blk.srcb, 1)] else []) ++
  (if chainOut o.blk.chain then [(chainOlink o.blk.chain, 2)] else [])

/-- A send of tile t waits: the far cluster takes nothing from the link, which is full (R145; log 17). -/
def State.sendWaits (s : State) (cluster : Nat) (o : EngOp) : Bool :=
  (o.outlets o.tile).any fun x => (s.takers cluster x.1 x.2).isEmpty && Config.linkFull s.tick

/-- What a tile sends on: forwarded operands as they are first consumed, and the finished tile (R145). -/
def State.forwardTile (s : State) (cluster gid : Nat) (o : EngOp) (f : Feeds) (t : Nat) (vs : List ((Nat × Nat) × Nat)) :
    State :=
  let b := o.blk
  let born := o.born
  let ctx := (s.groups.at gid {}).ctx
  let s := if srcFwd b.srca && t % b.tileCols = 0 then
      s.sendStream cluster (srcFlink b.srca) { gid, seq := o.seq, born, ctx, kind := 0, slot := o.slotA, scale := b.ea, k := b.k, m := b.m }
        (codesOf f.a o.slotA (b.tileRows t) b.k)
    else s
  let s := if srcFwd b.srcb && t / b.tileCols = 0 then
      s.sendStream cluster (srcFlink b.srcb) { gid, seq := o.seq, born, ctx, kind := 1, slot := o.slotB, scale := b.eb, k := b.k, n := b.n }
        (codesOf f.b o.slotB (b.tileColumns t) b.k)
    else s
  if chainOut b.chain then
    s.sendStream cluster (chainOlink b.chain) { gid, seq := o.seq, born, ctx, kind := 2, m := b.m, n := b.n, k := b.k } vs
  else s

/-- Change an operation of a group's queue. -/
def State.updOp (s : State) (gid seq : Nat) (f : EngOp → EngOp) : State :=
  s.updGroup gid fun g => { g with engq := g.engq.map fun o => if o.seq == seq then f o else o }

/-- How far a tile can go with what has come: its K-steps, counted down from n. -/
def EngOp.reach (o : EngOp) (c : Crew) (cl : Cluster) (f : Feeds) (t : Nat) : Nat → Option Nat
  | 0 => if (o.tileVals c cl f t 0).isSome then some 0 else none
  | n + 1 => if (o.tileVals c cl f t (n + 1)).isSome then some (n + 1) else o.reach c cl f t n

/-- An operation ends on a link's failure: each tile left holds its value after some prefix of its K-steps, which the manual
does not give (R145; log 17). -/
def State.linkEnd (s : State) (gid : Nat) (cr : Crew) (o : EngOp) : State :=
  let steps := o.blk.k / kStep o.slotA o.slotB
  let cluster := cr.core / 8
  let left := (List.range o.blk.tiles).filter fun t => o.tile ≤ t
  let s := left.foldl (fun s t =>
    let f := s.feeds cluster o
    let cl := s.cluster cluster
    match o.reach cr cl f t steps with
    | none => s
    | some most =>
      let n := Config.choice (s.tick + t) (most + 1) % (most + 1)
      if n = 0 then s else s.landTile cr o ((o.tileVals cr cl f t n).getD [])) s
  s.updOp gid o.seq fun o => { o with status := some 2 }

/-- One turn of an MMA or MMAZ (R145, R149). -/
def State.mmaTurn (s : State) (gid : Nat) (cr : Crew) (o : EngOp) : State :=
  let cluster := cr.core / 8
  let cl := s.cluster cluster
  let heads := o.inlets.filterMap fun x => cl.stream x.1 x.2
  if o.tile = 0 && heads.any (headerBad o) then s.updOp gid o.seq fun o => { o with status := some 1 }
  else
    let f := s.feeds cluster o
    match o.tileVals cr cl f o.tile (o.blk.k / kStep o.slotA o.slotB) with
    | none =>
      if o.farDead || heads.any fun t => t.dead then s.linkEnd gid cr o
      else s.updOp gid o.seq fun o =>
        { o with waited := some (o.waited.getD 0), far := (o.far ++ heads.map fun t => t.ctx).eraseDups }
    | some vs =>
      if o.farDead then s.linkEnd gid cr o
      else if s.sendWaits cluster o then s.updOp gid o.seq fun o => { o with waited := some (o.waited.getD 0) }
      else
        let far := (o.outlets o.tile).flatMap fun x => s.takers cluster x.1 x.2
        let s := (s.landTile cr o vs).forwardTile cluster gid o f o.tile vs
        s.updOp gid o.seq fun o =>
          { o with tile := o.tile + 1, waited := none, far := (o.far ++ far ++ heads.map fun t => t.ctx).eraseDups
                   status := if o.tile + 1 = o.blk.tiles then some 0 else none }

/-! ### ACLD and ACST (R157 to R159) -/

/-- ROW0, COL0, rows, columns and STRIDE of a rectangle word. -/
def rectRow0 (r : DWord) : Nat := bits r.toNat 9 0
/-- COL0. -/
def rectCol0 (r : DWord) : Nat := bits r.toNat 19 10
/-- Rows. -/
def rectRows (r : DWord) : Nat := bits r.toNat 29 20 + 1
/-- Columns. -/
def rectCols (r : DWord) : Nat := bits r.toNat 39 30 + 1
/-- STRIDE. -/
def rectStride (r : DWord) : Nat := bits r.toNat 63 40

/-- Element width in bytes. -/
def accWidth (slot : Word) : Nat := slotWidth slot / 8

/-- The address of element (r, c) of a rectangle. -/
def rectAddr (base rect : DWord) (w r c : Nat) : DWord := base + .ofNat 64 (r * rectStride rect + c * w)

/-- The random word of an element under stochastic rounding (R159). -/
def accDraw (seed : Word) (row col : Nat) : Nat :=
  (nextRandom (seedState (seed ^^^ .ofNat 32 ((1024 * row + col + 1) * 0x85EBCA6B)))).2

/-- The code ACST stores for an element (R159). -/
def acstCode (slot seed : Word) (row col acc : Nat) : Nat :=
  (narrowSlot slot (accDraw seed row col) (slotBias slot) (decodeF .f32 acc)).1

/-- The accumulator ACLD writes for a code (R159). -/
def acldAcc (slot : Word) (code : Nat) : Nat := (toF32 (-(slotBias slot)) (decodeSlot slot code)).1

/-- The ends of the accesses of one row, element by element. -/
def State.rowEnds (s : State) (g : Group) (o : EngOp) (r : Nat) : List (DWord × AsyncEnd) :=
  let w := accWidth o.slotA
  (List.range (rectCols o.rect)).map fun c =>
    let a := rectAddr o.base o.rect w r c
    (a, s.asyncEnd g 0 a.toNat w (if o.kind == .acld then .copyRead else .copyWrite) o.lev o.failed)

/-- A row whose elements all have places: ACLD. -/
def State.acldRow (s : State) (cr : Crew) (o : EngOp) (r : Nat) (ls : List Loc) : State :=
  let w := accWidth o.slotA
  let vals := ls.map fun l => acldAcc o.slotA (leNat (s.asyncBytes l w))
  s.updCluster (cr.core / 8) fun cl => vals.zipIdx.foldl (fun cl v =>
    cl.setAcc (cr.accKey (rectRow0 o.rect + r) (rectCol0 o.rect + v.2)) v.1) cl

/-- What ACST stores of a row: of each element that has a place, in column order. -/
def State.acstParts (s : State) (g : Group) (cr : Crew) (o : EngOp) (r : Nat) (ends : List (DWord × AsyncEnd)) :
    List StorePart :=
  let cl := s.cluster (cr.core / 8)
  let row := rectRow0 o.rect + r
  ends.zipIdx.filterMap fun x => match x.1.2 with
    | .loc l _ =>
      let col := rectCol0 o.rect + x.2
      some { lane := 0, addr := x.1.1, loc := l
             bytes := leBytes (accWidth o.slotA) (acstCode o.slotA g.seed row col (cl.accAt (cr.accKey row col))) }
    | _ => none

/-- The parts of a row of ACST are written. -/
def State.writeRow (s : State) (core : Nat) (parts : List StorePart) : State :=
  (parts.foldl (fun s p => s.asyncWrite core p.loc p.bytes) s).freshLines (wholeLines parts)

/-- The first failure of a row: a cause, or a line that cannot be merged (R158, R422). -/
def State.rowFail (s : State) (o : EngOp) (ends : List (DWord × AsyncEnd)) : Option Cause :=
  let parts := ends.filterMap fun x => match x.2 with
    | .loc l _ => some ({ lane := 0, addr := x.1, loc := l, bytes := List.replicate (accWidth o.slotA) 0 } : StorePart)
    | _ => none
  let whole := wholeLines parts
  ends.findSome? fun x => match x.2 with
    | .bad c => some c
    | .loc (.phys pa) _ => if o.kind == .acst && !whole.contains (pa / 64) then (s.lineFault pa).map fun _ => Cause.integrity
        else none
    | _ => none

/-- The parts of a failing row that are written all the same: each 16-byte unit holds old or new data (R158; log 10), and a
line that cannot be merged keeps its own. -/
def State.racedRow (s : State) (parts : List StorePart) : List StorePart :=
  let parts := parts.filter fun p => Config.racedNew s.tick (p.addr.toNat / 16)
  let whole := wholeLines parts
  parts.filter fun p => match p.loc with
    | .phys pa => whole.contains (pa / 64) || (s.lineFault pa).isNone
    | _ => true

/-- What holds a row. -/
def rowHeld (ends : List (DWord × AsyncEnd)) : Option (DWord × LogWait × Option Ask) :=
  ends.findSome? fun x => match x.2 with
    | .held h off table va => some (x.1, .page h, some ⟨h, off, table, va⟩)
    | .port p => some (x.1, .port p false, none)
    | _ => none

/-- The log entry of a held row (R158). -/
def Group.logRow (g : Group) (o : EngOp) (addr : DWord) (w : LogWait) : Group :=
  let i : Instr := if o.kind == .acld then .acld 0 0 0 0 false else .acst 0 0 0 0 false
  match (List.range 8).find? fun k => (vecGet g.oplog k none).isNone with
  | some k =>
    { g with
      oplog := vecMod g.oplog k fun _ => some
        { src := { lev := o.lev, instr := i }, lanes := [{ lane := 0, addr, data := [], wait := w }], eng := some o.seq }
      logOrder := g.logOrder ++ [k] }
  | none => g

/-- The row an operation stands at is held already. -/
def Group.rowLogged (g : Group) (seq : Nat) : Bool :=
  g.logOrder.any fun i => (vecGet g.oplog i none).any fun e => e.eng == some seq

/-- The first CXL port that a row's places lie behind. -/
def rowPort (ls : List Loc) : Option Nat :=
  ls.findSome? fun l => match l with
    | .phys pa => cxlPort pa
    | _ => none

/-- A row's end waits for a channel that retrains (R428). -/
def rowRetrains (ends : List (DWord × AsyncEnd)) : Bool :=
  ends.any fun x => match x.2 with
    | .port p => 64 ≤ p
    | _ => false

/-- A row goes out through a CXL port: its transaction, which the turn waits for (R158, R381). -/
def State.sendRow (s : State) (gid : Nat) (g : Group) (o : EngOp) (p : Nat) : State :=
  let t : Tx := { id := s.nextTx, gid, vf := ctxVf g.ctx, window := 0, port := p, kind := 3, lanes := [], cxl := true
                  retried := o.timed, eng := some o.seq
                  addrs := [(0, rectAddr o.base o.rect (accWidth o.slotA) o.row 0)] }
  { s with txs := s.txs ++ [t], nextTx := s.nextTx + 1 }.updOp gid o.seq fun o => { o with tx := some t.id }

/-- A row takes its effect; `ls` are the places of its ends. -/
def State.landRow (s : State) (gid : Nat) (g : Group) (cr : Crew) (o : EngOp) (ends : List (DWord × AsyncEnd))
    (ls : List Loc) : State :=
  let s := if o.kind == .acld then s.acldRow cr o o.row ls
    else s.writeRow cr.core (s.acstParts g cr o o.row ends)
  let s := s.meter (ctxVf g.ctx) none (physLocs ls (accWidth o.slotA))
  { s with txs := s.txs.filter fun t => o.tx != some t.id }.updOp gid o.seq fun o =>
    { o with row := o.row + 1, tx := none, timed := false, status := if o.row + 1 = rectRows o.rect then some 0 else none }

/-- An operation ends FAULTED at the row it has reached (R158, R160). -/
def EngOp.fault (o : EngOp) (c : Cause) : EngOp := { o with status := some 3, cause := .ofNat 8 c.code, tx := none }

/-- An operation fails at the row it has reached; what ACST has written of the row stays (R158). -/
def State.failRow (s : State) (gid : Nat) (g : Group) (cr : Crew) (o : EngOp) (ends : List (DWord × AsyncEnd)) (c : Cause) :
    State :=
  let s := if o.kind == .acst then s.writeRow cr.core (s.racedRow (s.acstParts g cr o o.row ends)) else s
  { s with txs := s.txs.filter fun t => o.tx != some t.id }.updOp gid o.seq fun o => o.fault c

/-- One turn of an ACLD or ACST: the row it has reached (R158). A row takes its effect at one instant, where its units may
each be old or new in a race with a core that is not checked (R152, R180; log 10). -/
def State.rowTurn (s : State) (gid : Nat) (g : Group) (cr : Crew) (o : EngOp) : State :=
  if g.rowLogged o.seq then s
  else
    let ends := s.rowEnds g o o.row
    match s.rowFail o ends with
    | some c => s.failRow gid g cr o ends c
    | none =>
      if rowRetrains ends then s
      else match rowHeld ends with
      | some (a, w, ask) =>
        let s := { s with txs := s.txs.filter fun t => o.tx != some t.id }.updOp gid o.seq fun o => { o with tx := none }
        let s := s.updGroup gid fun g => g.logRow o a w
        match ask with
        | some q => s.requestFor q.held g.ctx g.core q.va q.off q.table (if o.kind == .acld then 5 else 6)
        | none => s
      | none =>
        let ls := ends.filterMap fun x => match x.2 with
          | .loc l _ => some l
          | _ => none
        match o.tx, rowPort ls with
        | none, some p => s.sendRow gid g o p
        | _, _ => s.landRow gid g cr o ends ls

/-! ### Queue, leave and completion (R147 to R149, R155) -/

/-- The charge of an operation (R148). -/
def EngOp.charge (o : EngOp) : Nat :=
  if o.kind == .mma || o.kind == .mmaz then
    (o.blk.m + 127) / 128 * ((o.blk.n + 127) / 128) * (o.blk.k / kStep o.slotA o.slotB)
  else (rectRows o.rect + 127) / 128 * ((rectCols o.rect * 4 + 511) / 512)

/-- The charge of a copy task (R300). -/
def CopyTask.charge (t : CopyTask) : Nat := (t.size + 2047) / 2048

/-- The charge a request at the governor asks for. -/
def State.askCharge (s : State) : LockOwner → Nat
  | .eng gid seq => (((s.groups.at gid {}).engq.find? fun o => o.seq == seq).map EngOp.charge).getD 0
  | .task core r => (((s.core core).copyTasks.find? fun t => t.id == r).map CopyTask.charge).getD 0
  | .copy _ _ => 0

/-- The head of a governor's requests fits. -/
def State.leaveReady (s : State) (n : Nat) : Bool :=
  let c := s.cluster n
  match c.fifo with
  | [] => false
  | o :: _ => c.out + min (s.askCharge o) c.budget ≤ c.budget

/-- LEAVE_GRANT: the head of a cluster's requests takes its units (R148). -/
def State.grantLeave (s : State) (n : Nat) : State :=
  let c := s.cluster n
  match c.fifo with
  | [] => s
  | o :: rest =>
    let u := min (s.askCharge o) c.budget
    if c.out + u ≤ c.budget then
      let s := s.updCluster n fun c => { c with fifo := rest, out := c.out + u }
      match o with
      | .eng gid seq => s.updOp gid seq fun x => { x with granted := some u }
      | .task core r => s.updCore core fun k =>
          { k with copyTasks := k.copyTasks.map fun t => if t.id == r then { t with granted := some u } else t }
      | .copy _ _ => s
    else s

/-- ENGINE_TILE_TURN of a group (R149). -/
def State.engineTurn (s : State) (gid : Nat) : State :=
  match s.groups.find gid with
  | none => s
  | some g =>
    match g.turnOp with
    | none => s
    | some o =>
      let cr := s.crew g.crew
      let s := s.updCluster (g.core / 8) fun c => { c with rr := gid }
      match o.kind with
      | .mma | .mmaz => s.mmaTurn gid cr o
      | .acld | .acst => s.rowTurn gid g cr o

/-- ENGINE_COMPLETE of a group: status kept, locks and leave released, streams it took dropped (R145, R155, R160). -/
def State.engineEnd (s : State) (gid : Nat) : State :=
  match s.groups.find gid with
  | none => s
  | some g =>
    match g.engq with
    | [] => s
    | o :: rest =>
      match o.status with
      | none => s
      | some st =>
        let row := if st = 3 then o.row else 0
        let logs := g.logOrder.filter fun i => (vecGet g.oplog i none).any fun e => e.eng == some o.seq
        let s := s.updGroup gid fun g =>
          let g := logs.foldl (fun g i => g.freeLog i) g
          { g with engq := rest, engDone := ((o.seq, st, o.cause, row) :: g.engDone).take 16 }
        let s := s.freeLocks (.eng gid o.seq)
        s.updCluster (g.core / 8) fun c =>
          { c with out := c.out - o.granted.getD 0
                   fifo := c.fifo.filter fun x => x != .eng gid o.seq
                   inbox := o.inlets.foldl (fun (b : List (Nat × LinkStream)) x =>
                     match b.find? fun y => y.1 == x.1 && y.2.kind == x.2 with
                     | some y => b.erase y
                     | none => b) c.inbox }

/-- LINK_TIMEOUT: the operation has waited on a link beyond its group's limit (R145). -/
def State.linkExpired (s : State) (g : Group) (o : EngOp) : Bool :=
  o.status.isNone && match o.waited with
    | some c => g.wdog.toNat ≤ c && s.ctxLive g.ctx
    | none => false

/-- Both sides of the links an operation has used run (R145). -/
def State.linksRun (s : State) (g : Group) (o : EngOp) : Bool := s.ctxLive g.ctx && o.far.all s.ctxLive

/-- n cycles pass for the operations that wait on a link, where both sides' contexts run (R145, R156). -/
def State.countLinks (s : State) (n : Nat) : State :=
  { s with groups := s.groups.mapAll fun _ g => { g with engq := g.engq.map fun o => match o.waited with
      | some c => if s.linksRun g o then { o with waited := some (c + n) } else o
      | none => o } }

/-! ### Issue (R147, R154, R155) -/

/-- Put an operation into its queue: locks taken, leave asked, the ticket on its way. -/
def State.queueOp (s : State) (gid : Nat) (g : Group) (d : BitVec 6) (o : EngOp) (plan : List (Nat × List Lock)) : State :=
  let seq := g.engSeq + 1
  let s := s.takeLocks plan
  let s := s.updGroup gid fun g =>
    { g with engq := g.engq ++ [{ o with seq, born := s.tick }], engSeq := seq, fifo := g.fifo ++ [FifoOp.eng seq]
             fills := g.fills ++ [{ g := [(d, .ofNat 64 (seq % 2 ^ 32))] }] }
  s.updCluster (g.core / 8) fun c => { c with fifo := c.fifo ++ [.eng gid seq] }

/-- The spans of an operation: sources, destinations. -/
def State.opSpans (s : State) (g : Group) (o : EngOp) : List Span × List Span :=
  let cluster := g.core / 8
  let scr (src : BitVec 8) (addr stride n bytes : Nat) : List Span :=
    if srcKind src == 1 then []
    else
      let (core, lo, hi) := operandRange cluster addr stride n bytes
      [(core, .scratch core, lo, hi - 1)]
  match o.kind with
  | .mma | .mmaz =>
    (scr o.blk.srca o.blk.aaddr o.blk.astride o.blk.m (rowBytes o.slotA o.blk.k) ++
      scr o.blk.srcb o.blk.baddr o.blk.bstride o.blk.n (rowBytes o.slotB o.blk.k), [])
  | k =>
    let w := accWidth o.slotA
    let xs := (List.range (rectRows o.rect)).filterMap fun r =>
      let a := (rectAddr o.base o.rect w r 0).toNat
      let n := w * rectCols o.rect
      (s.locate g 0 a n .copyRead).map fun p => g.span p n
    if k == .acld then (xs, []) else ([], xs)

/-- Admit an operation whose checks have passed, or wait: at issue for locks and a FIFO entry, in the entry with an empty
ticket for a queue entry (R147, R151). -/
def State.admitOp (s : State) (gid ei : Nat) (g : Group) (e : Entry) (d : BitVec 6) (o : EngOp) (again : Bool) (w : Wait) :
    State :=
  let (ss, ds) := s.opSpans g o
  let plan := lockPlan g.core (.eng gid (g.engSeq + 1)) ss ds
  if g.fifoFull then s.block gid ei
  else if !s.canLock (s.turnOf e) plan then s.queueAt gid ei (planAsks plan)
  else if 4 ≤ g.engq.length then
    if again then s.block gid ei else (s.updGroup gid fun g => g.emptyG d.toNat).beginWait gid ei w
  else ((s.updGroup gid fun g => g.emptyG d.toNat).queueOp gid g d o plan).finish gid ei

/-- The operation of an MMA form, from its block's bytes. -/
def mmaOp (g : Group) (sa sb : Word) (zero : Bool) (r : List Byte) : EngOp :=
  { seq := 0, kind := if zero then .mmaz else .mma, blk := parseBlock r, slotA := sa, slotB := sb, lev := g.priv }

/-- The n bytes at a scratchpad offset as the group itself sees them: its stores still in the FIFO laid over them (R136,
R173); none while an ATOM of its FIFO is to change one. -/
def State.ownBytes (s : State) (g : Group) (off n : Nat) : Option (List Byte) :=
  ((s.scratchBytes g.core off n).zipIdx.map fun x => match g.forward (.scratch g.core (off + x.2)) 1 with
    | .take bs => some (bs.getD 0 x.1)
    | .none => some x.1
    | .wait => none).foldr (fun x acc => match x, acc with
      | some b, some bs => some (b :: bs)
      | _, _ => none) (some [])

/-- The trap of an MMA form's checks, in R139's order; the block's own fields are judged once its bytes are there. -/
def State.mmaTrap (s : State) (g : Group) (sa sb : Word) (zero : Bool) (at_ : DWord) (block : Option (List Byte)) :
    Option TrapInfo :=
  let cr := s.crew g.crew
  let off (o : Nat) : DWord := at_ + .ofNat 64 o
  if at_.toNat % 64 != 0 then some { cause := .misaligned, addr := at_ }
  else if cr.params.scratch < at_.toNat + 64 then some { cause := .accessViolation, addr := at_ }
  else if 9 ≤ slotCode sa || 9 ≤ slotCode sb then some { cause := .illegalOpcode, addr := at_ }
  else match block with
    | none => none
    | some r => match blockBad (s.vf (ctxVf g.ctx)) cr zero sa sb r with
      | some o => some { cause := .accessViolation, addr := off o }
      | none => (s.operandsBad g.ctx (g.core / 8) (parseBlock r) sa sb).map fun x => { cause := x.1, addr := off x.2 }

/-- MMA and MMAZ (R154, R155). -/
def mmaForm (zero : Bool) (d a : BitVec 6) (y x : BitVec 3) (w : Bool) (i : Instr) (s : State) : Result :=
  let n : Need := { gr := [a.toNat], gw := [d.toNat], trp := w, roles := [.matrix, .any] }
  issueWait n s
    (fun gid g ei e =>
      if g.fencing then s.block gid ei
      else
        let at_ := g.gAt a.toNat
        let block := s.ownBytes g ((s.crew g.crew).sbase + at_.toNat) 64
        let sa := s.slotOf g x.toNat
        let sb := s.slotOf g y.toNat
        match s.mmaTrap g sa sb zero at_ block, block with
        | some t, _ => s.takeTrap gid ei t
        | none, none => s.block gid ei
        | none, some r =>
          s.admitOp gid ei g e d (mmaOp g sa sb zero r) false
            { instr := i, data := keepBytes r })
    (fun gid g ei e wt =>
      s.admitOp gid ei g e d (mmaOp g (s.slotOf g x.toNat) (s.slotOf g y.toNat) zero wt.kept) true wt)

/-- MMA (R154). -/
def execMma (d a : BitVec 6) (y x : BitVec 3) (w : Bool) (s : State) : Result :=
  mmaForm false d a y x w (.mma d a y x w) s
/-- MMAZ (R154). -/
def execMmaz (d a : BitVec 6) (y x : BitVec 3) (w : Bool) (s : State) : Result :=
  mmaForm true d a y x w (.mmaz d a y x w) s

/-- The trap of ACLD's and ACST's checks in R369's order (R135, R158, R193). A stack-window address is that of lane 0, and
SR.TADDR of MISALIGNED and of a rectangle outside the run is G[A], where the manual names none (log 63). -/
def State.rectTrap (s : State) (g : Group) (slot : Word) (base rect : DWord) : Option TrapInfo :=
  let cr := s.crew g.crew
  let w := accWidth slot
  let n := w * rectCols rect
  let badRow := (List.range (rectRows rect)).find? fun r =>
    match s.locate g 0 (rectAddr base rect w r 0).toNat n .copyRead with
    | some (.fabric _ _) => true
    | some _ => false
    | none => true
  if 5 ≤ slotCode slot then some { cause := .illegalOpcode }
  else match badRow with
    | some r => some { cause := .accessViolation, addr := rectAddr base rect w r 0 }
    | none =>
      if base.toNat % w != 0 || rectStride rect % w != 0 then some { cause := .misaligned, addr := base }
      else if cr.rows < rectRow0 rect + rectRows rect || 1024 < rectCol0 rect + rectCols rect then
        some { cause := .accessViolation, addr := base }
      else none

/-- ACLD and ACST (R157 to R159). -/
def rectForm (k : EngKind) (d a b : BitVec 6) (f : BitVec 3) (w : Bool) (i : Instr) (s : State) : Result :=
  let n : Need := { gr := [a.toNat, b.toNat], gw := [d.toNat], trp := w, roles := [.matrix, .any] }
  let op (g : Group) (base rect : DWord) : EngOp :=
    { seq := 0, kind := k, slotA := s.slotOf g f.toNat, base, rect, lev := g.priv }
  issueWait n s
    (fun gid g ei e =>
      let base := g.gAt a.toNat
      let rect := g.gAt b.toNat
      if g.fencing then s.block gid ei
      else if !s.mayLog g e then s.queueAt gid ei []
      else match s.rectTrap g (s.slotOf g f.toNat) base rect with
        | some t => s.takeTrap gid ei t
        | none => s.admitOp gid ei g e d (op g base rect) false { instr := i, x := base, y := rect })
    (fun gid g ei e wt => s.admitOp gid ei g e d (op g wt.x wt.y) true wt)

/-- ACLD (R157). -/
def execAcld (d a b : BitVec 6) (f : BitVec 3) (w : Bool) (s : State) : Result :=
  rectForm .acld d a b f w (.acld d a b f w) s
/-- ACST (R157). -/
def execAcst (d a b : BitVec 6) (f : BitVec 3) (w : Bool) (s : State) : Result :=
  rectForm .acst d a b f w (.acst d a b f w) s

/-- The status word of a ticket; none while its operation is under way (R160). -/
def Group.ticketStatus (g : Group) (t : Nat) : Option DWord :=
  if t = 0 || g.engSeq < t then some (.ofNat 64 (t * 2 ^ 32 + 0xFE))
  else if g.engq.any fun o => o.seq == t then none
  else match g.engDone.find? fun x => x.1 == t with
    | some (_, st, c, row) => some (.ofNat 64 (t * 2 ^ 32 + row * 2 ^ 16 + c.toNat * 256 + st.toNat))
    | none => some (.ofNat 64 (t * 2 ^ 32 + 0xFF))

/-- MMWAIT's test: it writes the status and acquires at .clu, or waits on (R153, R160). -/
def State.testMmwait (s : State) (gid ei : Nat) (g : Group) (d : BitVec 6) (t : Nat) (stay : State) : State :=
  match g.ticketStatus t with
  | none => stay
  | some v => ((s.updGroup gid fun g => g.setG d.toNat v).finish gid ei).acquire g.core 2

/-- MMWAIT (R160). -/
def execMmwait (d a : BitVec 6) (w : Bool) (s : State) : Result :=
  issueWait { gr := [a.toNat], gw := [d.toNat], trp := w, roles := [.matrix, .any] } s
    (fun gid g ei _ =>
      let t := g.gAt a.toNat
      s.testMmwait gid ei g d (t.toNat % 2 ^ 32) (s.beginWait gid ei { instr := .mmwait d a w, x := t }))
    (fun gid g ei _ wt => s.testMmwait gid ei g d (wt.x.toNat % 2 ^ 32) (s.block gid ei))

end Sys2Proof.Machine
end

