-- ==== Sys2Proof/Machine/Dispatcher.lean ====
section
/-! DEFINITION. Sys2Proof/Machine/Dispatcher.lean: the steps of the launch dispatcher, of the cores' task queues and of copy tasks
(R285, R288, R291, R293, R300, R302, R304 to R306, R322). -/
namespace Sys2Proof.Machine

/-- One of several candidates where the manual names no order (log 17). -/
def pickOf {α : Type} (n : Nat) : List α → Option α
  | [] => none
  | [x] => some x
  | x :: y :: r => (x :: y :: r)[Config.choice n (r.length + 2) % (r.length + 2)]?

/-! ### Acceptance (R285, R293) -/

/-- The launch queues of a virtual function's live contexts that hold something. -/
def State.launchQueues (s : State) (vf : Nat) : List (Nat × Queue) :=
  s.queues.filter fun q =>
    q.2.live && q.2.launch && ctxVf q.2.ctx == vf && s.ctxLive q.2.ctx && !q.2.elems.isEmpty

/-- The next element in the dispatch order: queue, its class, the record (R293). -/
def State.nextLaunchOf (s : State) (vf : Nat) : Option (Nat × Queue × Nat × DWord) :=
  let qs := s.launchQueues vf
  let top := qs.foldl (fun m q => max m q.2.topClass) 0
  let mine := qs.filter fun q => q.2.topClass == top
  let last := (s.vf vf).lastQueue
  let q := match mine.find? fun q => last < q.1 with
    | some q => some q
    | none => mine.head?
  match q with
  | none => none
  | some (i, q) => (q.elems.find? fun e => e.1 == top).map fun e => (i, q, top, e.2)

/-- The element leaves its queue. -/
def State.takeElement (s : State) (vf i cls : Nat) (record : DWord) : State :=
  (s.updQueue i fun q => { q with elems := q.elems.erase (cls, record) }).updVf vf fun v => { v with lastQueue := i }

/-- A launch accepted: it joins the dispatch order, and STATUS says so (R285). -/
def State.joinOrder (s : State) (vf ctx queue cls : Nat) (lev : Priv) (p : Params) : State :=
  let id := s.nextLaunch
  let l : Launch := { ctx, params := p, priv := lev, cls, queue, crews := p.crews }
  let s := { s with launches := s.launches.put id l, nextLaunch := id + 1 }
  let s := s.updVf vf fun v => { v with order := v.order ++ [id] }
  s.writeStatus ctx p.recAddr 0x01 lev

/-- The dispatcher takes the next launch: read, judged, and accepted, refused, dropped or held (R285). -/
def State.acceptLaunch (s : State) (vf : Nat) : State :=
  match s.nextLaunchOf vf with
  | none => s
  | some (i, q, cls, record) =>
    let lev : Priv := if (s.ctx q.ctx).sq == i then .s else .l
    let drop (s : State) (c : Cause) : State :=
      (s.takeElement vf i cls record).postEvent q.ctx { addr := record, kind := c.code }
    if (s.vf vf).acceptHeld.any fun a => a.1 == i && a.2.1 == cls && a.2.2.1 == record then s
    else if record.toNat % 256 != 0 then drop s .misaligned
    else match s.fetchBytes q.ctx record.toNat 256 lev with
    | .cause c _ s => drop s c
    | .held h s => s.updVf vf fun v => { v with acceptHeld := v.acceptHeld ++ [(i, cls, record, h)] }
    | .ok r s =>
      let s := s.takeElement vf i cls record
      match judge (s.vf vf) record r with
      | .error b => s.writeStatus q.ctx record (b.state + 256 * b.off) lev
      | .ok p => s.joinOrder vf q.ctx i cls lev p

/-- LAUNCH_ACCEPT (R285). -/
def execLaunchAccept (vf : Nat) (s : State) : Result := .next (s.acceptLaunch vf)

/-! ### Placement (R288, R293) -/

/-- The launches of a virtual function's contexts that issue, waiting for placement, in the order of their acceptance. -/
def State.waiting (s : State) (vf : Nat) : List (Nat × Launch) :=
  ((s.vf vf).order.filterMap fun id => (s.launches.find id).map fun l => (id, l)).filter fun x => s.ctxLive x.2.ctx

/-- The queue whose turn it is among those that hold something of the highest class: queue and class of what waits (R293). -/
def turnQueue (last : Nat) (xs : List (Nat × Nat)) : Option (Nat × Nat) :=
  let top := xs.foldl (fun m x => max m x.2) 0
  let qs := (xs.filter fun x => x.2 == top).map fun x => x.1
  let least (ys : List Nat) : Option Nat := ys.foldl (fun best y => match best with
    | none => some y
    | some b => some (min b y)) none
  (match least (qs.filter fun q => last < q) with
    | some q => some q
    | none => least qs).map fun q => (q, top)

/-- The launch that is placed next (R293): of the highest class one placed in part, or the first of the queue whose turn it is;
none while a record not yet accepted stands first (R285). -/
def State.headLaunch (s : State) (vf : Nat) : Option (Nat × Launch) :=
  let ws := s.waiting vf
  let next := (s.nextLaunchOf vf).toList.map fun x => (x.1, x.2.2.1)
  let top := (next.map (fun x => x.2) ++ ws.map fun x => x.2.cls).foldl max 0
  match ws.find? fun x => x.2.placed != 0 && x.2.cls == top with
  | some x => some x
  | none =>
    match turnQueue (s.vf vf).placedQueue (next ++ ws.map fun x => (x.2.queue, x.2.cls)) with
    | none => none
    | some (q, c) => if next.contains (q, c) then none else ws.find? fun x => x.2.queue == q && x.2.cls == c

/-- Place the first launch's next gang on the cores given; nothing where they do not fit (R288, R290, R293). -/
def State.placeLaunch (s : State) (vf : Nat) (places : List Nat) : State :=
  match s.headLaunch vf with
  | none => s
  | some (id, l) =>
    let mine := (s.vf vf).clusters
    if places.length != l.params.gang || !(places.all fun c => mine.contains (c / 8)) || !l.params.bound l.placed places then s
    else match s.placeCrews id l (places.zipIdx.map fun x => (x.1, l.placed + x.2)) with
    | none => s
    | some s =>
      let l' := { l with placed := l.placed + places.length, state := 2 }
      let s := { s with launches := s.launches.put id l' }.updVf vf fun v => { v with placedQueue := l.queue }
      let s := if l'.placed < l.crews then s else s.updVf vf fun v => { v with order := v.order.filter (· != id) }
      if l.placed = 0 then s.writeStatus l.ctx l.params.recAddr 0x02 l.priv else s

/-- LAUNCH_PLACE (R293). -/
def execLaunchPlace (vf : Nat) (places : List Nat) (s : State) : Result := .next (s.placeLaunch vf places)

/-- Place n crews in one cluster, each on one of the cores that fit (R290; log 17). -/
def State.fillCluster (id : Nat) (l : Launch) (cluster : Nat) : Nat → List Nat → State → Option (List Nat × State)
  | 0, got, s => some (got, s)
  | n + 1, got, s =>
    let fit := ((List.range 8).map fun i => 8 * cluster + i).filter fun c => s.fits l.params c
    match pickOf (s.tick + n) fit with
    | none => none
    | some c => match s.placeCrews id l [(c, l.placed + got.length)] with
      | none => none
      | some s => State.fillCluster id l cluster n (got ++ [c]) s

/-- Place k instances of n crews, each in one of a die's clusters. -/
def State.fillDie (id : Nat) (l : Launch) (clusters : List Nat) (n : Nat) : Nat → List Nat → State → Option (List Nat × State)
  | 0, got, s => some (got, s)
  | k + 1, got, s =>
    let opts := clusters.filterMap fun c => State.fillCluster id l c n got s
    match pickOf (s.tick + k) opts with
    | none => none
    | some (got, s) => State.fillDie id l clusters n k got s

/-- Cores for the first launch's next gang, where it fits (R288, R290). -/
def State.choosePlaces (s : State) (vf : Nat) : Option (List Nat) :=
  match s.headLaunch vf with
  | none => none
  | some (id, l) =>
    let n := l.params.cluGang
    let mine := (s.vf vf).clusters
    let opts := (List.range 4).filterMap fun d =>
      State.fillDie id l (mine.filter fun c => c / 8 == d) n (l.params.gang / n) [] s
    (pickOf s.tick opts).map fun x => x.1

/-- The crew's turn by the stagger of its cluster has come: every crew let issue before it has issued, the last of them long
enough ago (R291). -/
def State.staggerDue (s : State) (key : Nat) (c : Crew) : Bool :=
  !c.started && s.ctxLive c.ctx &&
    (s.crews.all fun o => !o.2.started || o.2.begun || o.2.core / 8 != c.core / 8 || !s.ctxLive o.2.ctx) &&
    (match (s.cluster (c.core / 8)).lastStart with
      | none => true
      | some t => t + c.params.stagger ≤ s.cycle) &&
    s.crews.all fun o => o.1 == key || o.2.started || o.2.core / 8 != c.core / 8 || o.2.origin != c.origin || c.idx < o.2.idx

/-- STAGGER_START (R291). -/
def execStaggerStart (crew : Nat) (s : State) : Result :=
  match s.crews.find crew with
  | none => .next s
  | some c =>
    .next (if s.staggerDue crew c then s.updCrew crew fun c => { c with started := true } else s)

/-! ### Task queues (R304 to R306) -/

/-- A pending queue place. -/
def Pending.isPlace (p : Pending) : Bool :=
  match p.kind with
  | .place _ _ _ => true
  | _ => false

/-- A task leaves a core's queue; a freed entry brings the first spilled task on chip, and spawns that wait for a place try
again in arrival order (R306). -/
def State.dequeue (s : State) (core : Nat) (t : Task) : State :=
  let left := (s.core core).tasks.erase t
  let freed := if t.spilled then some t else left.find? fun u => u.spilled
  let left := if t.spilled then left else match freed with
    | some u => left.map fun x => if x == u then { x with spilled := false } else x
    | none => left
  let s := s.updCore core fun c => { c with tasks := left }
  match freed with
  | some u => s.updCtx u.ctx fun c => { c with areaUsed := c.areaUsed - 64 }
  | none => s

/-- Spawns that wait for a queue place try again (R306). -/
def State.retryPlaces (s : State) : State := s.retryPending Pending.isPlace

/-- The span of a copy task's range in its core's table (R202, R300). -/
def copySpan (core ctx : Nat) (a : DWord) (n : Nat) : Span :=
  (core, if a.getLsbD 63 then .fabric ctx else .local ctx, bits a.toNat 54 0, bits a.toNat 54 0 + n - 1)

/-- A copy task starts on the copy queue of a core: its table entries taken, and leave asked for when it is long (R300). -/
def State.startCopyTask (s : State) (core : Nat) (t : Task) (d : DWord × DWord × Nat) : Option State :=
  let id := (s.core core).nextCopy
  let owner := LockOwner.task core id
  let plan := lockPlan core owner [copySpan core t.ctx d.1 d.2.2] [copySpan core t.ctx d.2.1 d.2.2]
  if !s.canLock s.tick plan then none
  else
    let job : CopyTask := { id, record := t.record, ctx := t.ctx, src := d.1, dst := d.2.1, size := d.2.2, succ := t.succ }
    let s := (s.dequeue core t).takeLocks plan
    let s := s.updCore core fun c => { c with copyTasks := c.copyTasks ++ [job], nextCopy := id + 1 }
    some (if 2 ^ 20 < d.2.2 then s.updCluster (core / 8) fun c => { c with fifo := c.fifo ++ [owner] } else s)

/-- A core starts the head task of its queue when it fits; none when it cannot now (R299, R304). -/
def State.startHead (s : State) (core : Nat) : Option State :=
  match (s.core core).tasks with
  | [] => none
  | t :: _ =>
    if !s.ctxLive t.ctx then none
    else match t.copy with
    | some d => (s.startCopyTask core t d).map State.retryPlaces
    | none => if s.fits t.crewParams core then some ((s.dequeue core t).startTask t core).retryPlaces else none

/-- TASK_START (R304). -/
def execTaskStart (core : Nat) (s : State) : Result := .next ((s.startHead core).getD s)

/-- A queued task has aged (R305). A copy task has no launch class and waits for its home core (log 30). -/
def State.ageDue (s : State) (t : Task) : Bool :=
  !t.stealable && !t.nosteal && t.copy.isNone && s.ctxLive t.ctx && (s.ctx t.ctx).age ≤ s.cycle - t.since

/-- TASK_STEALABLE (R305). -/
def execTaskStealable (core idx : Nat) (s : State) : Result :=
  match (s.core core).tasks[idx]? with
  | none => .next s
  | some t => .next (if s.ageDue t then
      s.updCore core fun c => { c with tasks := setAt c.tasks idx fun t => { t with stealable := true } }
    else s)

/-- The virtual function that holds a core's cluster. -/
def State.vfOfCore (s : State) (core : Nat) : Option (Nat × VF) := s.vfs.find? fun v => v.2.clusters.contains (core / 8)

/-- Column and row of a cluster (R13). -/
def gridX (c : Nat) : Nat := 4 * (c / 8 % 2) + c % 4
/-- Row. -/
def gridY (c : Nat) : Nat := 2 * (c / 16) + c % 8 / 4

/-- Die edges between two clusters (R305). -/
def dieEdges (a b : Nat) : Nat :=
  (if a / 8 % 2 == b / 8 % 2 then 0 else 1) + (if a / 16 == b / 16 then 0 else 1)

/-- The distance without wrap. -/
def gridDist (a b : Nat) : Nat :=
  (max (gridX a) (gridX b) - min (gridX a) (gridX b)) + (max (gridY a) (gridY b) - min (gridY a) (gridY b))

/-- Core a is nearer to a cluster than core b, by R305's tests. -/
def VF.nearer (v : VF) (home a b : Nat) : Bool :=
  let e := dieEdges (a / 8) home
  let f := dieEdges (b / 8) home
  let d := gridDist (a / 8) home
  let g := gridDist (b / 8) home
  e < f || (e == f && (d < g || (d == g && v.coreNumber a < v.coreNumber b)))

/-- The core is idle for a task (R305). -/
def State.idleFor (s : State) (core : Nat) (t : Task) : Bool :=
  (s.core core).tasks.isEmpty && s.fits t.crewParams core

/-- The oldest stealable task a core may take, with the core that queues it (R305). -/
def State.stealFor (s : State) (v : VF) (core : Nat) : Option (Nat × Task) :=
  let all := (v.clusters.flatMap fun c => (List.range 8).map fun i => 8 * c + i).flatMap fun k =>
    ((s.core k).tasks.filter fun t => t.stealable && s.ctxLive t.ctx && s.idleFor core t).map fun t => (k, t)
  all.foldl (fun best x => match best with
    | none => some x
    | some b => if x.2.since < b.2.since then some x else some b) none

/-- An idle core takes the oldest stealable task that fits, unless a nearer idle core reaches for it; none when it takes
nothing (R305). -/
def State.steal (s : State) (core : Nat) : Option State :=
  match s.vfOfCore core with
  | none => none
  | some (_, v) => match s.stealFor v core with
    | none => none
    | some (k, t) =>
      let others := v.clusters.flatMap fun c => (List.range 8).map fun i => 8 * c + i
      if others.any fun o => o != core && s.idleFor o t && v.nearer (t.home / 2) o core then none
      else some ((s.dequeue k t).startTask t core).retryPlaces

/-- TASK_STEAL (R305). -/
def execTaskSteal (core : Nat) (s : State) : Result := .next ((s.steal core).getD s)

/-! ### Copy tasks (R300) -/

/-- The end of one access of a copy task, at level L (R299, R300, R354). -/
def State.taskEnd (s : State) (t : CopyTask) (a : DWord) (k : Acc) : AsyncEnd :=
  let lo := bits a.toNat 54 0
  if bits a.toNat 62 55 != 0 then .bad .accessViolation
  else if a.getLsbD 63 then
    let w := lo / 2 ^ 47
    let off := lo % 2 ^ 47
    match (s.vf (ctxVf t.ctx)).windows.find w with
    | some win =>
      if windowAllows win (s.ctx t.ctx).asid off 16 k then
        s.portEnd (windowPort win) (.loc (.fabric (ctxVf t.ctx) w off) none)
      else .bad .accessViolation
    | none => .bad .accessViolation
  else if globalAddr lo then s.asyncVirt t.ctx lo k .l t.failed
  else .bad .accessViolation

/-- The destination's line is written whole by the task. -/
def CopyTask.wholeLine (t : CopyTask) (a : Nat) : Bool :=
  t.dst.toNat ≤ a / 64 * 64 && a / 64 * 64 + 64 ≤ t.dst.toNat + t.size

/-- The request that the next unit's access to a place begins: one for each 128-byte line (R191, R341). -/
def CopyTask.request (t : CopyTask) (l : Loc) : List (Nat × Nat) :=
  match l with
  | .phys pa => if t.done = 0 || pa % 128 = 0 then [(pa, min (128 - pa % 128) (t.size - 16 * t.done))] else []
  | _ => []

/-- A unit performed or failed; `old` is the state whose bytes an overlapping range may still show (log 10). -/
def State.copyUnit (old s : State) (core : Nat) (t : CopyTask) (from_ into : AsyncEnd) : State × CopyTask :=
  let src := t.src + BitVec.ofNat 64 (16 * t.done)
  let dst := t.dst + BitVec.ofNat 64 (16 * t.done)
  let next : CopyTask := { t with done := t.done + 1, failed := [] }
  let fail (c : Cause) (a : DWord) : State × CopyTask :=
    (s, { next with firstFail := if t.firstFail.isSome then t.firstFail else some (c, a) })
  match from_, into with
  | .bad c, _ => fail c src
  | _, .bad c => fail c dst
  | .loc a _, .loc b _ =>
    let line := match b with
      | .phys pa => if t.wholeLine dst.toNat then none else s.lineFault pa
      | _ => none
    match line with
    | some _ => fail .integrity dst
    | none =>
      let bs := (if Config.racedNew s.tick t.done then s else old).asyncBytes a 16
      let s := (s.asyncWrite core b bs).meter (ctxVf t.ctx) none (t.request a ++ t.request b)
      (match b with
        | .phys pa => if t.wholeLine dst.toNat then s.freshLines [pa / 64] else s
        | _ => s, next)
  | _, _ => (s, t)

/-- Run a copy task's units until it is done, a page holds it, or a port does (R300). -/
def State.copyUnits (old : State) (core : Nat) : Nat → State → CopyTask → State × CopyTask
  | 0, s, t => (s, t)
  | n + 1, s, t =>
    if t.size / 16 ≤ t.done then (s, t)
    else
      let from_ := s.taskEnd t (t.src + BitVec.ofNat 64 (16 * t.done)) .copyRead
      let into := s.taskEnd t (t.dst + BitVec.ofNat 64 (16 * t.done)) .copyWrite
      match from_, into with
      | .held h off table va, _ => (s.requestFor h t.ctx core va off table 5, { t with held := some h })
      | .port _, _ => (s, t)
      | _, .held h off table va => (s.requestFor h t.ctx core va off table 6, { t with held := some h })
      | _, .port _ => (s, t)
      | a, b =>
        let (s, t) := State.copyUnit old s core t a b
        State.copyUnits old core n s t

/-- A copy task completes: its event, its entries and leave returned, its counter decremented (R148, R300, R302). -/
def State.endCopyTask (s : State) (core : Nat) (t : CopyTask) : State :=
  let s := s.updCore core fun c => { c with copyTasks := c.copyTasks.filter fun x => x.id != t.id }
  let s := s.freeLocks (.task core t.id)
  let s := s.updCluster (core / 8) fun c =>
    { c with out := c.out - t.granted.getD 0, fifo := c.fifo.filter fun x => x != .task core t.id }
  let s := match t.firstFail with
    | some (c, a) => s.postEvent t.ctx { addr := a, info := t.record, kind := c.code, core }
    | none => s
  s.decrement t.ctx t.succ t.record .l

/-- The task may move units now (R148, R300). -/
def State.copyDue (s : State) (t : CopyTask) : Bool :=
  s.ctxLive t.ctx && t.held.isNone && (t.size ≤ 2 ^ 20 || t.granted.isSome)

/-- The idx-th copy task of a core moves its units; with the last it completes (R300). -/
def State.runCopyTask (s : State) (core idx : Nat) : State :=
  match (s.core core).copyTasks[idx]? with
  | none => s
  | some t =>
    if !s.copyDue t then s
    else
      let (s, t) := State.copyUnits s core (t.size / 16) s t
      if t.size / 16 ≤ t.done then s.endCopyTask core t
      else s.updCore core fun c => { c with copyTasks := c.copyTasks.map fun x => if x.id == t.id then t else x }

/-- COPY_TASK_COMPLETE (R300). -/
def execCopyTaskComplete (core idx : Nat) (s : State) : Result := .next (s.runCopyTask core idx)

/-! ### Regatta dispatchers (R322) -/

/-- HEAT_DISPATCH (R322). -/
def execHeatDispatch (rset : Nat) (s : State) : Result :=
  .next (if s.ctxLive (rset / 65536) then s.dispatchHeat rset else s)

/-- HEAT_END (R322). -/
def execHeatEnd (rset task : Nat) (s : State) : Result :=
  .next (if s.ctxLive (rset / 65536) then s.finishHeat rset task else s)

end Sys2Proof.Machine
end

