-- ==== Sys2Proof/Machine/LaneInt.lean ====
section
/-! DEFINITION. Sys2Proof/Machine/LaneInt.lean: integer arithmetic, logic, shifts, bit fields, moves, integer compares and
lane predicate logic (R97 to R113). -/
namespace Sys2Proof.Machine

/-! ### Shared shapes -/

/-- A form of two V sources and one V destination. -/
def lane2 (f : Word → Word → Word × Flags) (d a b : BitVec 7) (w : Bool) (s : State) : Result :=
  laneForm { vr := [a.toNat, b.toNat], vw := [d.toNat], trp := w } s fun x =>
    { v := [(d.toNat, (f (x.v a.toNat) (x.v b.toNat)).1)], fl := (f (x.v a.toNat) (x.v b.toNat)).2 }

/-- A form of two V sources that also reads its destination (R45). -/
def lane3 (f : Word → Word → Word → Word × Flags) (d a b : BitVec 7) (w : Bool) (s : State) : Result :=
  laneForm { vr := [a.toNat, b.toNat, d.toNat], vw := [d.toNat], trp := w } s fun x =>
    { v := [(d.toNat, (f (x.v a.toNat) (x.v b.toNat) (x.v d.toNat)).1)]
      fl := (f (x.v a.toNat) (x.v b.toNat) (x.v d.toNat)).2 }

/-- A form of one V source and one V destination. -/
def lane1 (f : Word → Word × Flags) (d a : BitVec 7) (w : Bool) (s : State) : Result :=
  laneForm { vr := [a.toNat], vw := [d.toNat], trp := w } s fun x =>
    { v := [(d.toNat, (f (x.v a.toNat)).1)], fl := (f (x.v a.toNat)).2 }

/-- A result that raises no flag. -/
def plain (x : Word) : Word × Flags := (x, 0)

/-! ### R100, R101 -/

/-- IADD (R100). -/
def execIadd (d a b : BitVec 7) (w : Bool) (s : State) : Result := lane2 (fun x y => plain (x + y)) d a b w s
/-- ISUB (R100). -/
def execIsub (d a b : BitVec 7) (w : Bool) (s : State) : Result := lane2 (fun x y => plain (x - y)) d a b w s
/-- IADDS.i32 (R100). -/
def execIaddsI32 (d a b : BitVec 7) (w : Bool) (s : State) : Result :=
  lane2 (fun x y => satI32 (x.toInt + y.toInt)) d a b w s
/-- ISUBS.i32 (R100). -/
def execIsubsI32 (d a b : BitVec 7) (w : Bool) (s : State) : Result :=
  lane2 (fun x y => satI32 (x.toInt - y.toInt)) d a b w s
/-- IADDS.n32 (R100). -/
def execIaddsN32 (d a b : BitVec 7) (w : Bool) (s : State) : Result :=
  lane2 (fun x y => satN32 ((x.toNat : Int) + y.toNat)) d a b w s
/-- ISUBS.n32 (R100). -/
def execIsubsN32 (d a b : BitVec 7) (w : Bool) (s : State) : Result :=
  lane2 (fun x y => satN32 ((x.toNat : Int) - y.toNat)) d a b w s
/-- IADDI, with or without LIT (R101). -/
def execIaddi (d a : BitVec 7) (i : BitVec 10) (w : Bool) (s : State) : Result :=
  lane1 (fun x => plain (x + s.laneImm i)) d a w s

/-! ### R102, R103 -/

/-- IMUL (R102). -/
def execImul (d a b : BitVec 7) (w : Bool) (s : State) : Result := lane2 (fun x y => plain (x * y)) d a b w s
/-- IMULH.i32 (R102). -/
def execImulhI32 (d a b : BitVec 7) (w : Bool) (s : State) : Result :=
  lane2 (fun x y => plain (.ofInt 32 (x.toInt * y.toInt / 4294967296))) d a b w s
/-- IMULH.n32 (R102). -/
def execImulhN32 (d a b : BitVec 7) (w : Bool) (s : State) : Result :=
  lane2 (fun x y => plain (.ofNat 32 (x.toNat * y.toNat / 4294967296))) d a b w s
/-- IMAC (R102). -/
def execImac (d a b : BitVec 7) (w : Bool) (s : State) : Result := lane3 (fun x y z => plain (x * y + z)) d a b w s
/-- IMIN.i (R103). -/
def execIminI (d a b : BitVec 7) (w : Bool) (s : State) : Result :=
  lane2 (fun x y => plain (if y.slt x then y else x)) d a b w s
/-- IMAX.i (R103). -/
def execImaxI (d a b : BitVec 7) (w : Bool) (s : State) : Result :=
  lane2 (fun x y => plain (if x.slt y then y else x)) d a b w s
/-- IMIN.n (R103). -/
def execIminN (d a b : BitVec 7) (w : Bool) (s : State) : Result :=
  lane2 (fun x y => plain (if y.ult x then y else x)) d a b w s
/-- IMAX.n (R103). -/
def execImaxN (d a b : BitVec 7) (w : Bool) (s : State) : Result :=
  lane2 (fun x y => plain (if x.ult y then y else x)) d a b w s
/-- IABS, saturating with SAT (R103). -/
def execIabs (d a : BitVec 7) (w : Bool) (s : State) : Result :=
  lane1 (fun x => satI32 (x.toInt.natAbs : Int)) d a w s
/-- IDIF, exact, read as n32 (R103). -/
def execIdif (d a b : BitVec 7) (w : Bool) (s : State) : Result :=
  lane2 (fun x y => plain (.ofNat 32 (x.toInt - y.toInt).natAbs)) d a b w s

/-! ### R104 -/

/-- AND (R104). -/
def execAnd (d a b : BitVec 7) (w : Bool) (s : State) : Result := lane2 (fun x y => plain (x &&& y)) d a b w s
/-- OR (R104). -/
def execOr (d a b : BitVec 7) (w : Bool) (s : State) : Result := lane2 (fun x y => plain (x ||| y)) d a b w s
/-- XOR (R104). -/
def execXor (d a b : BitVec 7) (w : Bool) (s : State) : Result := lane2 (fun x y => plain (x ^^^ y)) d a b w s
/-- ANDN (R104). -/
def execAndn (d a b : BitVec 7) (w : Bool) (s : State) : Result := lane2 (fun x y => plain (x &&& ~~~ y)) d a b w s
/-- ORN (R104). -/
def execOrn (d a b : BitVec 7) (w : Bool) (s : State) : Result := lane2 (fun x y => plain (x ||| ~~~ y)) d a b w s
/-- XNOR (R104). -/
def execXnor (d a b : BitVec 7) (w : Bool) (s : State) : Result := lane2 (fun x y => plain (~~~ (x ^^^ y))) d a b w s

/-! ### R105 -/

/-- SHL by any count: 0 from 32 upward. -/
def shl32 (x : Word) (c : Nat) : Word := if 32 ≤ c then 0 else x <<< c
/-- SHR by any count. -/
def shr32 (x : Word) (c : Nat) : Word := if 32 ≤ c then 0 else x >>> c
/-- SAR by any count: 32 copies of bit 31 from 32 upward. -/
def sar32 (x : Word) (c : Nat) : Word := x.sshiftRight (min c 31)
/-- ROL by c mod 32. -/
def rol32 (x : Word) (c : Nat) : Word := x.rotateLeft (c % 32)

/-- SHL, register count (R105). -/
def execShlReg (d a b : BitVec 7) (w : Bool) (s : State) : Result :=
  lane2 (fun x y => plain (shl32 x y.toNat)) d a b w s
/-- SHR, register count (R105). -/
def execShrReg (d a b : BitVec 7) (w : Bool) (s : State) : Result :=
  lane2 (fun x y => plain (shr32 x y.toNat)) d a b w s
/-- SAR, register count (R105). -/
def execSarReg (d a b : BitVec 7) (w : Bool) (s : State) : Result :=
  lane2 (fun x y => plain (sar32 x y.toNat)) d a b w s
/-- ROL, register count (R105). -/
def execRolReg (d a b : BitVec 7) (w : Bool) (s : State) : Result :=
  lane2 (fun x y => plain (rol32 x y.toNat)) d a b w s
/-- SHL, immediate count (R105). -/
def execShlImm (d a : BitVec 7) (c : BitVec 5) (w : Bool) (s : State) : Result :=
  lane1 (fun x => plain (shl32 x c.toNat)) d a w s
/-- SHR, immediate count (R105). -/
def execShrImm (d a : BitVec 7) (c : BitVec 5) (w : Bool) (s : State) : Result :=
  lane1 (fun x => plain (shr32 x c.toNat)) d a w s
/-- SAR, immediate count (R105). -/
def execSarImm (d a : BitVec 7) (c : BitVec 5) (w : Bool) (s : State) : Result :=
  lane1 (fun x => plain (sar32 x c.toNat)) d a w s
/-- ROL, immediate count (R105). -/
def execRolImm (d a : BitVec 7) (c : BitVec 5) (w : Bool) (s : State) : Result :=
  lane1 (fun x => plain (rol32 x c.toNat)) d a w s

/-! ### R106, R107 -/

/-- Number of one bits. -/
def popCount (x : Word) : Nat := (List.range 32).foldl (fun n i => n + (x.getLsbD i).toNat) 0
/-- Number of leading zero bits. -/
def leadingZeros (x : Word) : Nat := if x = 0 then 32 else 31 - x.toNat.log2
/-- Index of the lowest one bit; 32 for zero. -/
def lowestOne (x : Word) : Nat := ((List.range 32).find? fun i => x.getLsbD i).getD 32
/-- pos and len of a field operand (R106). -/
def fieldPos (b : Word) : Nat := b.toNat % 256
/-- len, at most 32. -/
def fieldLen (b : Word) : Nat := min (b.toNat / 256 % 256) 32

/-- BFX.N: the field zero-extended (R106). -/
def bfxN (a b : Word) : Word := .ofNat 32 (a.toNat / 2 ^ fieldPos b % 2 ^ fieldLen b)

/-- BFX.I: bits beyond 31 of a read as bit 31, then sign-extended (R106). -/
def bfxI (a b : Word) : Word :=
  let len := fieldLen b
  let f := (a.toInt / 2 ^ fieldPos b % 2 ^ len).toNat
  if len = 0 then 0
  else if f.testBit (len - 1) then .ofInt 32 ((f : Int) - 2 ^ len) else .ofNat 32 f

/-- BFI: the low len bits of a inserted at pos, bits past 31 dropped (R106). -/
def bfi (a b d : Word) : Word :=
  let mask : Word := .ofNat 32 ((2 ^ fieldLen b - 1) * 2 ^ fieldPos b)
  (d &&& ~~~ mask) ||| (.ofNat 32 (a.toNat * 2 ^ fieldPos b) &&& mask)

/-- POPC (R106). -/
def execPopc (d a : BitVec 7) (w : Bool) (s : State) : Result := lane1 (fun x => plain (.ofNat 32 (popCount x))) d a w s
/-- CLZ (R106). -/
def execClz (d a : BitVec 7) (w : Bool) (s : State) : Result := lane1 (fun x => plain (.ofNat 32 (leadingZeros x))) d a w s
/-- BREV (R106). -/
def execBrev (d a : BitVec 7) (w : Bool) (s : State) : Result := lane1 (fun x => plain x.reverse) d a w s
/-- FFS (R106). -/
def execFfs (d a : BitVec 7) (w : Bool) (s : State) : Result := lane1 (fun x => plain (.ofNat 32 (lowestOne x))) d a w s
/-- BFX.n (R106). -/
def execBfxN (d a b : BitVec 7) (w : Bool) (s : State) : Result := lane2 (fun x y => plain (bfxN x y)) d a b w s
/-- BFX.i (R106). -/
def execBfxI (d a b : BitVec 7) (w : Bool) (s : State) : Result := lane2 (fun x y => plain (bfxI x y)) d a b w s
/-- BFI (R106). -/
def execBfi (d a b : BitVec 7) (w : Bool) (s : State) : Result := lane3 (fun x y z => plain (bfi x y z)) d a b w s
/-- LEA (R107). -/
def execLea (d a b : BitVec 7) (sh : BitVec 3) (w : Bool) (s : State) : Result :=
  lane2 (fun x y => plain (x + (y <<< sh.toNat))) d a b w s

/-! ### Moves (R68, R108 to R110) -/

/-- MOVI (R108). -/
def execMovi (d : BitVec 7) (i : BitVec 17) (w : Bool) (s : State) : Result :=
  laneForm { vw := [d.toNat], trp := w } s fun _ => { v := [(d.toNat, s.laneImm i)] }
/-- MOV (R109). -/
def execMov (d a : BitVec 7) (w : Bool) (s : State) : Result := lane1 plain d a w s

/-- MOVG: a word of G[A] in every bundle lane. -/
def movgForm (f : DWord → Word) (d : BitVec 7) (a : BitVec 6) (w : Bool) (s : State) : Result :=
  issueRegs { gr := [a.toNat], vw := [d.toNat], trp := w } s fun g e => g.setV d.toNat e.mask fun _ => f (g.gAt a.toNat)

/-- MOVG.lo (R109). -/
def execMovgLo (d : BitVec 7) (a : BitVec 6) (w : Bool) (s : State) : Result := movgForm (fun x => x.truncate 32) d a w s
/-- MOVG.hi (R109). -/
def execMovgHi (d : BitVec 7) (a : BitVec 6) (w : Bool) (s : State) : Result :=
  movgForm (fun x => (x >>> 32).truncate 32) d a w s
/-- MOV2 (R109). -/
def execMov2 (d a : BitVec 7) (w : Bool) (s : State) : Result :=
  laneForm { vr := [a.toNat, a.toNat + 1], vw := [d.toNat, d.toNat + 1], trp := w } s fun x =>
    { v := [(d.toNat, x.v a.toNat), (d.toNat + 1, x.v (a.toNat + 1))] }

/-- SRD: bits 31:0 of a special register; an unassigned number, or one not readable at the level, is no instruction (R68). -/
def execSrd (d : BitVec 7) (n : BitVec 12) (w : Bool) (s : State) : Result :=
  match s.acting with
  | none => .fault .noActor
  | some (_, g, _, e) =>
    let v := s.readSr g e n.toNat
    issue { vw := [d.toNat], trp := w, illegal := v.isNone && !srPerLane n.toNat } s fun gid g ei e =>
      if srWaits n.toNat && g.lanesBusy then s.block gid ei
      else (s.putGroup gid (g.setV d.toNat e.mask fun l =>
        if srPerLane n.toNat then .ofNat 32 l.val else .ofNat 32 (v.getD 0))).finish gid ei

/-- CMOV, 32-bit (R110). -/
def execCmov (d a : BitVec 7) (p : BitVec 6) (n w : Bool) (s : State) : Result :=
  laneForm { vr := [a.toNat], pr := [p.toNat], vw := [d.toNat], trp := w } s fun x =>
    { v := if x.p p.toNat != n then [(d.toNat, x.v a.toNat)] else [] }
/-- CMOV, 64-bit (R110). -/
def execCmovD (d a : BitVec 7) (p : BitVec 6) (n w : Bool) (s : State) : Result :=
  laneForm { vr := [a.toNat, a.toNat + 1], pr := [p.toNat], vw := [d.toNat, d.toNat + 1], trp := w } s fun x =>
    { v := if x.p p.toNat != n then [(d.toNat, x.v a.toNat), (d.toNat + 1, x.v (a.toNat + 1))] else [] }

/-! ### Compares and predicate logic (R111, R113) -/

/-- ICMP (R111). -/
def execIcmp (p : BitVec 6) (a b : BitVec 7) (c : BitVec 4) (w : Bool) (s : State) : Result :=
  laneForm { vr := [a.toNat, b.toNat], pw := [p.toNat], trp := w } s fun x =>
    { p := [(p.toNat, icond c.toNat (x.v a.toNat) (x.v b.toNat))] }

/-- A form of two lane predicates, each inverted by its bit. -/
def plane2 (f : Bool → Bool → Bool) (d a b : BitVec 6) (na nb : Bool) (s : State) : Result :=
  laneForm { pr := [a.toNat, b.toNat], pw := [d.toNat] } s fun x =>
    { p := [(d.toNat, f (x.p a.toNat ^^ na) (x.p b.toNat ^^ nb))] }

/-- PAND (R113). -/
def execPand (d a b : BitVec 6) (x y : Bool) (s : State) : Result := plane2 and d a b x y s
/-- POR (R113). -/
def execPor (d a b : BitVec 6) (x y : Bool) (s : State) : Result := plane2 or d a b x y s
/-- PXOR (R113). -/
def execPxor (d a b : BitVec 6) (x y : Bool) (s : State) : Result := plane2 xor d a b x y s
/-- PMOV (R113). -/
def execPmov (d a : BitVec 6) (x : Bool) (s : State) : Result :=
  laneForm { pr := [a.toNat], pw := [d.toNat] } s fun i => { p := [(d.toNat, i.p a.toNat ^^ x)] }
/-- PSET: true when NB = 0 (R113). -/
def execPset (d : BitVec 6) (y : Bool) (s : State) : Result :=
  laneForm { pw := [d.toNat] } s fun _ => { p := [(d.toNat, !y)] }

end Sys2Proof.Machine
end

