-- ==== Sys2Proof/Machine/LaneFloat.lean ====
section
/-! DEFINITION. Sys2Proof/Machine/LaneFloat.lean: floating arithmetic, compares, special functions, conversions and packing
(R112, R114 to R123). -/
namespace Sys2Proof.Machine

/-! ### Element types (R41, R114) -/

/-- The format a type field names. -/
def fpFmt (t : Nat) : Fmt :=
  match t with
  | 0 => .f32
  | 1 => .f64
  | 2 => .f16
  | _ => .bf16

/-- The registers a type makes of the one named (R45). -/
def fpRegs (t : Nat) (r : Nat) : List Nat := if t = 1 then [r, r + 1] else [r]

/-- The value of an f64 pair. -/
def LaneIn.pair (x : LaneIn) (r : Nat) : Nat := (x.v r).toNat + 4294967296 * (x.v (r + 1)).toNat

/-- Writes of a 64-bit result. -/
def pairOut (d n : Nat) : List (Nat × Word) := [(d, .ofNat 32 n), (d + 1, .ofNat 32 (n / 4294967296))]

/-- Apply an operation to the one or two elements of a type. -/
def fpOut (f : Fmt → List Nat → Nat × Flags) (t d : Nat) (srcs : List Nat) (x : LaneIn) : LaneOut :=
  match t with
  | 0 =>
    let r := f .f32 (srcs.map fun i => (x.v i).toNat)
    { v := [(d, .ofNat 32 r.1)], fl := r.2 }
  | 1 =>
    let r := f .f64 (srcs.map x.pair)
    { v := pairOut d r.1, fl := r.2 }
  | _ =>
    let r0 := f (fpFmt t) (srcs.map fun i => (x.v i).toNat % 65536)
    let r1 := f (fpFmt t) (srcs.map fun i => (x.v i).toNat / 65536)
    { v := [(d, .ofNat 32 (r0.1 + 65536 * r1.1))], fl := r0.2 ||| r1.2 }

/-- A floating form of the sources listed. -/
def fpForm (f : Fmt → List Nat → Nat × Flags) (t d : Nat) (srcs : List Nat) (w : Bool) (s : State) : Result :=
  laneForm { vr := srcs.flatMap (fpRegs t), vw := fpRegs t d, trp := w } s (fpOut f t d srcs)

/-- A two-source operation. -/
def fp2 (f : Fmt → Nat → Nat → Nat × Flags) : Fmt → List Nat → Nat × Flags
  | fm, [a, b] => f fm a b
  | _, _ => (0, 0)

/-- A three-source operation: a, b and the destination's old value. -/
def fp3 (f : Fmt → Nat → Nat → Nat → Nat × Flags) : Fmt → List Nat → Nat × Flags
  | fm, [a, b, d] => f fm a b d
  | _, _ => (0, 0)

/-- FADD (R115). -/
def execFadd (d a b : BitVec 7) (t : BitVec 2) (w : Bool) (s : State) : Result :=
  fpForm (fp2 fadd) t.toNat d.toNat [a.toNat, b.toNat] w s
/-- FSUB (R115). -/
def execFsub (d a b : BitVec 7) (t : BitVec 2) (w : Bool) (s : State) : Result :=
  fpForm (fp2 fsub) t.toNat d.toNat [a.toNat, b.toNat] w s
/-- FMUL, B negated when n (R114, R115). -/
def execFmul (d a b : BitVec 7) (t : BitVec 2) (n w : Bool) (s : State) : Result :=
  fpForm (fp2 fun f => fmul f n) t.toNat d.toNat [a.toNat, b.toNat] w s
/-- FMAC, one rounding (R115). -/
def execFmac (d a b : BitVec 7) (t : BitVec 2) (n w : Bool) (s : State) : Result :=
  fpForm (fp3 fun f => fmac f n) t.toNat d.toNat [a.toNat, b.toNat, d.toNat] w s
/-- FMIN (R115). -/
def execFmin (d a b : BitVec 7) (t : BitVec 2) (w : Bool) (s : State) : Result :=
  fpForm (fp2 fun f x y => (fminmax f false x y, 0)) t.toNat d.toNat [a.toNat, b.toNat] w s
/-- FMAX (R115). -/
def execFmax (d a b : BitVec 7) (t : BitVec 2) (w : Bool) (s : State) : Result :=
  fpForm (fp2 fun f x y => (fminmax f true x y, 0)) t.toNat d.toNat [a.toNat, b.toNat] w s

/-- FCMP; C[3] selects f64 pairs (R112). -/
def execFcmp (p : BitVec 6) (a b : BitVec 7) (c : BitVec 4) (w : Bool) (s : State) : Result :=
  let t := c.toNat / 8
  let val (x : LaneIn) (r : Nat) : Val := if t = 1 then decodeF .f64 (x.pair r) else decodeF .f32 (x.v r).toNat
  laneForm { vr := [a.toNat, b.toNat].flatMap (fpRegs t), pw := [p.toNat], trp := w } s fun x =>
    { p := [(p.toNat, fcond (c.toNat % 8) (val x a.toNat) (val x b.toNat))] }

/-! ### Special functions (R116) -/

/-- A special function of f32. -/
def spForm (fn : SpFn) (d a : BitVec 7) (w : Bool) (s : State) : Result :=
  lane1 (fun x => (.ofNat 32 (special fn x.toNat).1, (special fn x.toNat).2)) d a w s

/-- FRCP (R116). -/
def execFrcp (d a : BitVec 7) (w : Bool) (s : State) : Result := spForm .rcp d a w s
/-- FRSQ (R116). -/
def execFrsq (d a : BitVec 7) (w : Bool) (s : State) : Result := spForm .rsq d a w s
/-- FSQRT (R116). -/
def execFsqrt (d a : BitVec 7) (w : Bool) (s : State) : Result := spForm .sqrt d a w s
/-- FEX2 (R116). -/
def execFex2 (d a : BitVec 7) (w : Bool) (s : State) : Result := spForm .ex2 d a w s
/-- FLG2 (R116). -/
def execFlg2 (d a : BitVec 7) (w : Bool) (s : State) : Result := spForm .lg2 d a w s
/-- FSINP (R116). -/
def execFsinp (d a : BitVec 7) (w : Bool) (s : State) : Result := spForm .sinp d a w s
/-- FCOSP (R116). -/
def execFcosp (d a : BitVec 7) (w : Bool) (s : State) : Result := spForm .cosp d a w s

/-- FRND's modes (R117). -/
def frndMode (m : Nat) : RMode :=
  match m with
  | 0 => .rne
  | 1 => .rtz
  | 2 => .flr
  | 3 => .ceil
  | _ => .rna

/-- FRND (R117). -/
def execFrnd (d a : BitVec 7) (t : BitVec 2) (m : BitVec 3) (w : Bool) (s : State) : Result :=
  fpForm (fun f xs => (frnd f (frndMode m.toNat) (xs.headD 0), 0)) t.toNat d.toNat [a.toNat] w s

/-! ### CVT (R118 to R120) -/

/-- A type of CVT occupies a pair. -/
def cvtWide (ty : Nat) : Bool := ty = 1 || ty = 6 || ty = 7

/-- The registers of a type. -/
def cvtRegs (ty r : Nat) : List Nat := if cvtWide ty then [r, r + 1] else [r]

/-- The value of a source type. -/
def cvtVal (ty r : Nat) (x : LaneIn) : Val :=
  match ty with
  | 0 => decodeF .f32 (x.v r).toNat
  | 1 => decodeF .f64 (x.pair r)
  | 2 => decodeF .f16 ((x.v r).toNat % 65536)
  | 3 => decodeF .bf16 ((x.v r).toNat % 65536)
  | 4 => ofInteger (x.v r).toInt
  | 5 => ofInteger (x.v r).toNat
  | 6 => ofInteger (BitVec.ofNat 64 (x.pair r)).toInt
  | _ => ofInteger (x.pair r)

/-- The rounding mode of RND, with the drawn word (R119). -/
def cvtMode (r rw : Nat) : RMode :=
  match r with
  | 2 => .rna
  | 3 => .rtz
  | 4 => .flr
  | 5 => .ceil
  | 6 => .sr rw
  | _ => .rne

/-- The result in a destination type, as a number of the type's width. -/
def cvtTo (ty : Nat) (mode : RMode) (sat : Bool) (v : Val) : Nat × Flags :=
  let int (lo hi : Int) (w : Nat) : Nat × Flags :=
    let r := narrowI lo hi mode 0 v
    ((BitVec.ofInt w r.1).toNat, r.2)
  match ty with
  | 0 => narrowF .f32 mode sat 0 v
  | 1 => narrowF .f64 mode sat 0 v
  | 2 => narrowF .f16 mode sat 0 v
  | 3 => narrowF .bf16 mode sat 0 v
  | 4 => int (-2147483648) 2147483647 32
  | 5 => int 0 4294967295 32
  | 6 => int (-9223372036854775808) 9223372036854775807 64
  | _ => int 0 18446744073709551615 64

/-- CVT (R120). -/
def execCvt (d a : BitVec 7) (c : BitVec 6) (r : BitVec 3) (sat w : Bool) (s : State) : Result :=
  let sTy := c.toNat / 8
  let dTy := c.toNat % 8
  laneForm { vr := cvtRegs sTy a.toNat, vw := cvtRegs dTy d.toNat, trp := w } s fun x =>
    let draw := nextRandom x.rng
    let res := cvtTo dTy (cvtMode r.toNat draw.2) sat (cvtVal sTy a.toNat x)
    { v := if cvtWide dTy then pairOut d.toNat res.1 else [(d.toNat, .ofNat 32 res.1)]
      fl := res.2
      rng := if r.toNat = 6 then some draw.1 else none }

/-! ### PKN and UPKN (R121) -/

/-- The slot holds a code PKN and UPKN take. -/
def packable (w : Word) : Bool :=
  match slotFmt w with
  | .flt f => f != .f32
  | .mere _ => false
  | _ => true

/-- Elements in a register. -/
def packCount (w : Word) : Nat := if packable w then 32 / slotWidth w else 1

/-- Pack elements from index i on, drawing for each one under a stochastic slot (R93). -/
def packFrom (slot : Word) (t : Int) (x : LaneIn) (a : Nat) : Nat → Nat → Word → Nat × Flags × Word
  | 0, _, st => (0, 0, st)
  | n + 1, i, st =>
    let draw := nextRandom st
    let st' := if slotStoch slot then draw.1 else st
    let c := narrowSlot slot draw.2 t (decodeF .f32 (x.v (a + i)).toNat)
    let rest := packFrom slot t x a n (i + 1) st'
    (c.1 * 2 ^ (slotWidth slot * i) + rest.1, c.2 ||| rest.2.1, rest.2.2)

/-- PKN (R121). -/
def execPkn (d a b : BitVec 7) (f : BitVec 3) (w : Bool) (s : State) : Result :=
  let slot := s.laneSlot f.toNat
  let n := packCount slot
  laneForm { vr := (List.range n).map (a.toNat + ·) ++ [b.toNat], vw := [d.toNat], trp := w
             illegal := !packable slot } s fun x =>
    let r := packFrom slot (slotBias slot - (x.v b.toNat).toInt) x a.toNat n 0 x.rng
    { v := [(d.toNat, .ofNat 32 r.1)], fl := r.2.1, rng := some r.2.2 }

/-- UPKN (R121). -/
def execUpkn (d a b : BitVec 7) (f : BitVec 3) (w : Bool) (s : State) : Result :=
  let slot := s.laneSlot f.toNat
  let n := packCount slot
  laneForm { vr := [a.toNat, b.toNat], vw := (List.range n).map (d.toNat + ·), trp := w
             illegal := !packable slot } s fun x =>
    let el (i : Nat) : Nat × Flags :=
      toF32 ((x.v b.toNat).toInt - slotBias slot)
        (decodeSlot slot ((x.v a.toNat).toNat / 2 ^ (slotWidth slot * i) % 2 ^ slotWidth slot))
    { v := (List.range n).map fun i => (d.toNat + i, .ofNat 32 (el i).1)
      fl := (List.range n).foldl (fun acc i => acc ||| (el i).2) 0 }

/-! ### PKB, UPKB and BSCL (R122, R123) -/

/-- Magnitude bits of a slot's MERE code. -/
def slotMere (w : Word) : Option Nat :=
  match slotFmt w with
  | .mere k => some k
  | _ => none

/-- Lanes of a block. -/
def blockLanes (k : Nat) : Nat := if k = 1 then 2 else 4
/-- Elements a lane holds. -/
def laneElems (k : Nat) : Nat := 16 / blockLanes k

/-- A block has some, but not all, of its lanes in the bundle (R122). -/
def partBlock (k : Nat) (m : Mask) : Bool :=
  let b := blockLanes k
  (List.range (128 / b)).any fun q =>
    let ins := (List.range b).filter fun i => m.getLsbD (b * q + i)
    !ins.isEmpty && ins.length < b

/-- V[r] of a lane by number. -/
def Group.vNat (g : Group) (r l : Nat) : Word := if h : l < 128 then g.vAt r ⟨l, h⟩ else 0

/-- The scaled elements of block q (R122): t = BIAS - e, e from register er of each element's lane. -/
def blockVals (g : Group) (slot : Word) (k a er q : Nat) : List Val :=
  (List.range 16).map fun j =>
    let l := blockLanes k * q + j / laneElems k
    (decodeF .f32 (g.vNat (a + j % laneElems k) l).toNat).scale (slotBias slot - (g.vNat er l).toInt)

/-- n draws of a generator: the words, first first, and the state after them. -/
def draws : Nat → Word → List Nat × Word
  | 0, st => ([], st)
  | n + 1, st =>
    let d := nextRandom st
    let r := draws n d.1
    (d.2 :: r.1, r.2)

/-- Generator state of a lane by number. -/
def Group.rngNat (g : Group) (l : Nat) : Word := if h : l < 128 then g.rng[l] else 0

/-- The drawn words of a block's elements. -/
def blockDraws (g : Group) (k q : Nat) : List Nat :=
  (List.range (blockLanes k)).flatMap fun i => (draws (laneElems k) (g.rngNat (blockLanes k * q + i))).1

/-- PKB's record of block q. -/
def pkbRecord (g : Group) (slot : Word) (k a b q : Nat) : Nat × Flags :=
  mereEncode slot k (blockDraws g k q) (blockVals g slot k a b q)

/-- The bundle checks and effect of the block forms. -/
def blockForm (n : Need) (k : Nat) (s : State) (f : Group → Entry → Group) : Result :=
  issue n s fun gid g ei e =>
    if partBlock k e.mask then s.takeTrap gid ei { cause := .uniformViolation }
    else (s.putGroup gid (f g e)).finish gid ei

/-- The flags of the blocks of a bundle. -/
def blockFlags (k : Nat) (m : Mask) (f : Nat → Flags) : Flags :=
  (List.range (128 / blockLanes k)).foldl (fun acc q => if m.getLsbD (blockLanes k * q) then acc ||| f q else acc) 0

/-- PKB (R122). -/
def execPkb (d a b : BitVec 7) (f : BitVec 3) (w : Bool) (s : State) : Result :=
  let slot := s.laneSlot f.toNat
  let k := (slotMere slot).getD 1
  let n := laneElems k
  blockForm { vr := (List.range n).map (a.toNat + ·) ++ [b.toNat], vw := [d.toNat], trp := w
              illegal := (slotMere slot).isNone } k s fun g e =>
    let rec1 (l : Fin 128) : Nat := (pkbRecord g slot k a.toNat b.toNat (l.val / blockLanes k)).1
    let g1 := g.setV d.toNat e.mask fun l => .ofNat 32 (rec1 l / 2 ^ (32 * (l.val % blockLanes k)))
    { g1 with
      arith := g.arith ||| blockFlags k e.mask fun q => (pkbRecord g slot k a.toNat b.toNat q).2
      rng := if slotStoch slot then setLanes g.rng e.mask fun l => (draws n g.rng[l]).2 else g.rng }

/-- The record bytes of block q, read from the lanes' registers. -/
def upkbRecord (g : Group) (k a q : Nat) : Nat :=
  (List.range (blockLanes k)).foldl (fun acc i => acc + (g.vNat a (blockLanes k * q + i)).toNat * 2 ^ (32 * i)) 0

/-- Element o of a lane after UPKB. -/
def upkbElem (g : Group) (slot : Word) (k a b : Nat) (l : Fin 128) (o : Nat) : Nat × Flags :=
  let j := l.val % blockLanes k * laneElems k + o
  toF32 ((g.vAt b l).toInt - slotBias slot) (mereDecode k (upkbRecord g k a (l.val / blockLanes k)) j)

/-- UPKB (R122). -/
def execUpkb (d a b : BitVec 7) (f : BitVec 3) (w : Bool) (s : State) : Result :=
  let slot := s.laneSlot f.toNat
  let k := (slotMere slot).getD 1
  let n := laneElems k
  blockForm { vr := [a.toNat, b.toNat], vw := (List.range n).map (d.toNat + ·), trp := w
              illegal := (slotMere slot).isNone } k s fun g e =>
    let g1 := (List.range n).foldl (fun acc o =>
      acc.setV (d.toNat + o) e.mask fun l => .ofNat 32 (upkbElem g slot k a.toNat b.toNat l o).1) g
    { g1 with arith := (lanesIn e.mask).foldl (fun acc l =>
        (List.range n).foldl (fun acc o => acc ||| (upkbElem g slot k a.toNat b.toNat l o).2) acc) g.arith }

/-- BSCL: the E of each block, its scale from V[A + n] (R123). -/
def execBscl (d a : BitVec 7) (f : BitVec 3) (w : Bool) (s : State) : Result :=
  let slot := s.laneSlot f.toNat
  let k := (slotMere slot).getD 1
  let n := laneElems k
  blockForm { vr := (List.range (n + 1)).map (a.toNat + ·), vw := [d.toNat], trp := w
              illegal := (slotMere slot).isNone } k s fun g e =>
    g.setV d.toNat e.mask fun l =>
      .ofNat 32 (mereE (blockVals g slot k a.toNat (a.toNat + n) (l.val / blockLanes k)))

end Sys2Proof.Machine
end

