-- ==== Sys2Proof/Machine/Render.lean ====
section
/-! DEFINITION. Sys2Proof/Machine/Render.lean: render targets: descriptors and tiles, draw streams, fragments and their order at a
pixel, method programs on the Shore units, and RTOPEN, FPOST, FSEAL, RTSYNC, RTREL and RTCLOSE (R54, R55, R79, R124, R183,
R226 to R255, R355). -/
namespace Sys2Proof.Machine

/-! ### Sequence numbers (R234) -/

/-- δ(p, f). -/
def psnDist (p f : BitVec 24) : Nat := (p - f).toNat

/-- p lies behind f. -/
def psnBehind (p f : BitVec 24) : Bool := 2 ^ 23 ≤ psnDist p f

/-- Place of p in increasing order around f. -/
def psnRank (p f : BitVec 24) : Nat := (psnDist p f + 2 ^ 23) % 2 ^ 24

/-- Insert by a rank, after what has the same one. -/
def insertBy {α : Type} (f : α → Nat) (x : α) : List α → List α
  | [] => [x]
  | y :: r => if f x < f y then x :: y :: r else y :: insertBy f x r

/-- A list by a rank, equal ranks in their old order. -/
def sortBy {α : Type} (f : α → Nat) (xs : List α) : List α := xs.foldl (fun acc x => insertBy f x acc) []

/-- F past every consecutive set bit (R234). -/
def slide : Nat → BitVec 24 → List (BitVec 24) → BitVec 24 × List (BitVec 24)
  | 0, f, b => (f, b)
  | n + 1, f, b => if b.contains f then slide n (f + 1) (b.erase f) else (f, b)

/-! ### Targets and tiles (R227 to R230) -/

/-- Bytes of a colour sample (R229). -/
def Stream.sampleBytes (t : Stream) : Nat := if t.format = 2 then 8 else 4

/-- Samples of a pixel. -/
def Stream.count (t : Stream) : Nat := 2 ^ t.samples

/-- Tiles of a row, and rows of tiles. -/
def Stream.tilesAcross (t : Stream) : Nat := (t.wm1 + 8) / 8
/-- Rows of tiles. -/
def Stream.tilesDown (t : Stream) : Nat := (t.hm1 + 8) / 8

/-- Bytes of a plane whose samples take sz bytes. -/
def Stream.planeBytes (t : Stream) (sz : Nat) : Nat := t.tilesAcross * t.tilesDown * (64 * t.count * sz)

/-- Offset in a plane of sample k of a pixel (R229). -/
def Stream.sampleOff (t : Stream) (sz x y k : Nat) : Nat :=
  (y / 8 * t.tilesAcross + x / 8) * (64 * t.count * sz) + ((y % 8 * 8 + x % 8) * t.count + k) * sz

/-- The address of a colour sample. -/
def Stream.colorAt (t : Stream) (x y k : Nat) : Nat := t.base.toNat + t.sampleOff t.sampleBytes x y k

/-- The address of a depth sample. -/
def Stream.depthAt (t : Stream) (x y k : Nat) : Nat := t.dbase.toNat + t.sampleOff 4 x y k

/-- The Shore unit that serves a pixel: 4 × its slice and the unit within it (R230). -/
def State.shoreUnit (s : State) (t : Stream) (x y : Nat) : Nat :=
  let va := t.base.toNat + (y / 8 * t.tilesAcross + x / 8) * (64 * t.count * t.sampleBytes)
  4 * s.owner (t.pages.at (va / 65536) 0 * 65536 + va % 65536) + 2 * (y % 2) + x % 2

/-- A plane's pages: page, its first byte that belongs to the plane, and how many. -/
def planePages (base size : Nat) : List (Nat × Nat × Nat) :=
  let first := base / 65536
  let last := (base + size - 1) / 65536
  (List.range (last + 1 - first)).map fun i =>
    let lo := max base (65536 * (first + i))
    (first + i, lo, min (base + size) (65536 * (first + i + 1)) - lo)

/-- The pages of both planes. -/
def Stream.allPages (t : Stream) : List (Nat × Nat × Nat) :=
  planePages t.base.toNat (t.planeBytes t.sampleBytes) ++
    (if t.dbase = 0 then [] else planePages t.dbase.toNat (t.planeBytes 4))

/-- A local global address on a boundary (R228). -/
def planeBase (a n : Nat) : Bool := globalAddr a && a % n == 0

/-- The checks of R227 and R228 in offset order. -/
def targetChecks (r : List Byte) : List (Nat × Bool) :=
  let fmt := field r 0x30 1
  [(0x00, planeBase (field r 0 8) 4096), (0x08, planeBase (field r 8 8) 4096 && (fmt != 4 || field r 8 8 == 0)),
    (0x10, planeBase (field r 0x10 8) 4), (0x18, planeBase (field r 0x18 8) 4),
    (0x20, fmt == 2 || field r 0x24 4 == 0), (0x2C, field r 0x2C 2 < 16384), (0x2E, field r 0x2E 2 < 16384),
    (0x30, fmt ≤ 4), (0x31, field r 0x31 1 ≤ 3), (0x32, field r 0x32 1 == 1), (0x33, field r 0x33 1 ≤ 1),
    (0x34, field r 0x34 12 == 0)]

/-- The stream a descriptor asks for, without its programs. -/
def targetStream (ctx : Nat) (desc : DWord) (lev : Priv) (slots : List Word) (r : List Byte) : Stream :=
  { live := true, ctx, desc, priv := lev, base := .ofNat 64 (field r 0 8), dbase := .ofNat 64 (field r 8 8)
    clearc := .ofNat 64 (field r 0x20 8), cleard := .ofNat 32 (field r 0x28 4), wm1 := field r 0x2C 2
    hm1 := field r 0x2E 2, format := field r 0x30 1, samples := field r 0x31 1, comm := bit (field r 0x33 1) 0, slots }

/-! ### Method programs (R54, R55, R124, R241) -/

/-- The registers and predicates of a word whose W must be 0. -/
def regsOf (w : Bool) (rs : List (BitVec 7)) (ps : List (BitVec 6)) : Option (List Nat × List Nat) :=
  if w then none else some (rs.map fun r => r.toNat, ps.map fun p => p.toNat)

/-- MFRG's SEL is allowed. -/
def frgAllowed (close : Bool) (sel : Nat) : Bool := sel ≤ 1 || (!close && sel ≤ 10)

/-- MTLD's and MTST's SEL is allowed. -/
def tgtAllowed (t : Stream) (close : Bool) (sel : Nat) : Bool :=
  sel == 0 || (sel == 1 && t.format == 2) || (sel == 2 && t.dbase != 0) || (close && 8 ≤ sel && sel - 8 < t.count)

/-- A packing word under the stream's copied slot: n element registers from one of its registers. -/
def packRegs (t : Stream) (draws : Bool) (w : Bool) (elem : BitVec 7) (others : List (BitVec 7)) (f : BitVec 3) :
    Option (List Nat × List Nat) :=
  let slot := t.slots.getD f.toNat 0
  if w || !packable slot || (draws && slotStoch slot) then none
  else some (others.map (fun r => r.toNat) ++ (List.range (packCount slot)).map fun i => elem.toNat + i, [])

/-- The M registers and predicates a word of a method program names; none when R55 does not allow the word. -/
def methodUse (t : Stream) (close : Bool) : Instr → Option (List Nat × List Nat)
  | .iadd d a b w | .isub d a b w | .iaddsI32 d a b w | .isubsI32 d a b w | .iaddsN32 d a b w | .isubsN32 d a b w
  | .imul d a b w | .imulhI32 d a b w | .imulhN32 d a b w | .imac d a b w
  | .iminI d a b w | .imaxI d a b w | .iminN d a b w | .imaxN d a b w | .idif d a b w
  | .and d a b w | .or d a b w | .xor d a b w | .andn d a b w | .orn d a b w | .xnor d a b w
  | .shlReg d a b w | .shrReg d a b w | .sarReg d a b w | .rolReg d a b w
  | .bfxN d a b w | .bfxI d a b w | .bfi d a b w => regsOf w [d, a, b] []
  | .iabs d a w | .popc d a w | .clz d a w | .brev d a w | .ffs d a w | .mov d a w => regsOf w [d, a] []
  | .shlImm d a _ w | .shrImm d a _ w | .sarImm d a _ w | .rolImm d a _ w => regsOf w [d, a] []
  | .movi d _ w => regsOf w [d] []
  | .cmov d a p _ w => regsOf w [d, a] [p]
  | .icmp p a b _ w => regsOf w [a, b] [p]
  | .fcmp p a b c w => if c.getLsbD 3 then none else regsOf w [a, b] [p]
  | .pand d a b _ _ | .por d a b _ _ | .pxor d a b _ _ => regsOf false [] [d, a, b]
  | .pmov d a _ => regsOf false [] [d, a]
  | .pset d _ => regsOf false [] [d]
  | .fadd d a b t w | .fsub d a b t w | .fmin d a b t w | .fmax d a b t w => if t = 1 then none else regsOf w [d, a, b] []
  | .fmul d a b t _ w | .fmac d a b t _ w => if t = 1 then none else regsOf w [d, a, b] []
  | .cvt d a c r _ w =>
    if cvtWide (c.toNat / 8) || cvtWide (c.toNat % 8) || r = 6 then none else regsOf w [d, a] []
  | .pkn d a b f w => packRegs t true w a [d, b] f
  | .upkn d a b f w => packRegs t false w d [a, b] f
  | .mfrg d sel => if frgAllowed close sel.toNat then regsOf false [d] [] else none
  | .mtld d sel => if tgtAllowed t close sel.toNat then regsOf false [d] [] else none
  | .mtst a sel => if tgtAllowed t close sel.toNat then regsOf false [a] [] else none
  | .mdsc p _ => regsOf false [] [p]
  | .mend => regsOf false [] []
  | _ => none

/-- The word may stand in a method program of the stream. -/
def methodOk (t : Stream) (close : Bool) (w : Word) : Bool :=
  match decode w with
  | .error _ => false
  | .ok i => match methodUse t close i with
    | none => false
    | some (rs, ps) => rs.all (· < 16) && ps.all (· < 8)

/-- The end of a step of RTOPEN: what it read, a trap, or a page to wait for with the address that met it. -/
inductive Open (α : Type) where
  | ok (x : α) (s : State)
  | bad (c : Cause) (addr : Nat) (s : State)
  | held (va : Nat) (h : Held) (s : State)

/-- Read a program word by word up to its first MEND, at most n more words (R55). -/
def State.readMethod (t : Stream) (close : Bool) : Nat → Nat → List Word → State → Open (List Word)
  | 0, a, _, s => .bad .illegalOpcode (a - 4) s
  | n + 1, a, ws, s =>
    match s.fetchBytes t.ctx a 4 t.priv with
    | .cause c va s => .bad c va s
    | .held h s => .held a h s
    | .ok b s =>
      let w : Word := .ofNat 32 (leNat b)
      if !methodOk t close w then .bad .illegalOpcode a s
      else if w = 0x78000000 then .ok (ws ++ [w]) s
      else State.readMethod t close n (a + 4) (ws ++ [w]) s

/-- Translate the planes page by page for reading and writing (R355). -/
def State.mapPlanes (t : Stream) : List (Nat × Nat × Nat) → KeyMap Nat → State → Open (KeyMap Nat)
  | [], m, s => .ok m s
  | (page, lo, n) :: rest, m, s =>
    if !globalAddr (lo + n - 1) then .bad .accessViolation lo s
    else match s.translate t.ctx lo .atomic t.priv with
    | .cause c => .bad c lo s
    | .lost c pa => .bad c lo (s.lineRecord pa (ctxVf t.ctx) (t.ctx % 4096))
    | .miss h table off => .held lo h (s.requestFor h t.ctx 0xFFFF lo off table 7)
    | .ok e => State.mapPlanes t rest (m.put page e.ppage) (s.holdTlb e)

/-! ### Streams (R231, R232) -/

/-- The handle of a target entry. -/
def streamHandle (i : Nat) (t : Stream) : DWord := .ofNat 64 (t.gen * 2 ^ 48 + i)

/-- The open stream a handle names in a context. -/
def State.streamOf (s : State) (ctx : Nat) (h : DWord) : Option (Nat × Stream) :=
  let n := h.toNat
  if bits n 47 16 != 0 then none
  else match s.streams.find (n % 65536) with
  | some t => if t.live && !t.closing && t.ctx == ctx && t.gen == bits n 63 48 then some (n % 65536, t) else none
  | none => none

/-- Change a stream. -/
def State.updStream (s : State) (i : Nat) (f : Stream → Stream) : State := { s with streams := s.streams.upd i f }

/-- Method words a stream takes: each program rounded up to 64 (R247). -/
def Stream.methodWords (t : Stream) : Nat := (t.method.length + 63) / 64 * 64 + (t.close.length + 63) / 64 * 64

/-- Method words in use on the Shore units of a partition. -/
def State.methodUsed (s : State) (vf : Nat) : Nat :=
  (s.streams.filter fun t => t.2.live && ctxVf t.2.ctx == vf).foldl (fun n t => n + t.2.methodWords) 0

/-- A free target entry. -/
def State.freeStream (s : State) : Option Nat :=
  (List.range 65536).find? fun i => !(s.streams.at i { live := false }).live

/-- The Shore units of a partition. -/
def VF.shoreUnits (v : VF) : List Nat := v.slices2.flatMap fun sl => (List.range 4).map fun u => 4 * sl + u

/-- Every Shore unit has received F (R234). -/
def State.viewsReached (s : State) (t : Stream) : Bool :=
  (s.vf (ctxVf t.ctx)).shoreUnits.all fun u => t.views.at u 0 == t.f

/-- Remove from every L1 the sectors of a pixel that takes more than one of them, so that no load mixes two states of it
(R244). -/
def State.freshPixel (s : State) (t : Stream) (x y : Nat) : State :=
  let planes := (t.colorAt x y 0, t.count * t.sampleBytes) :: (if t.dbase = 0 then [] else [(t.depthAt x y 0, t.count * 4)])
  (planes.filter fun p => 16 < p.2).foldl (fun s p =>
    let pa := t.pages.at (p.1 / 65536) 0 * 65536 + p.1 % 65536
    { s with cores := s.cores.mapAll fun _ c => { c with l1 := c.l1.filter fun z => !(pa / 16 ≤ z.1 && z.1 ≤ (pa + p.2 - 1) / 16) } }) s

/-- Remove a stream's plane pages from a core's L1 (R183). -/
def State.acquireTarget (s : State) (core : Nat) (t : Stream) : State :=
  s.updCore core fun c => { c with l1 := c.l1.filter fun x => !(t.pages.any fun p => p.2 == x.1 / 4096) }

/-! ### RTOPEN (R246, R247) -/

/-- What RTOPEN has found once it may open: the stream with its programs and pages. -/
def State.prepareStream (s : State) (g : Group) (desc : DWord) : Open Stream :=
  match s.fetchBytes g.ctx desc.toNat 64 g.priv with
  | .cause c va s => .bad c va s
  | .held h s => .held desc.toNat h s
  | .ok r s =>
    match firstBad (targetChecks r) with
    | some o => .bad .accessViolation (desc.toNat + o) s
    | none =>
      let t := targetStream g.ctx desc g.priv (s.crew g.crew).params.slots r
      match s.readMethod t false 256 (field r 0x10 8) [] with
      | .bad c a s => .bad c a s
      | .held va h s => .held va h s
      | .ok ws s =>
        let t := { t with method := ws }
        if field r 0x18 8 = 0 then .ok t s
        else match s.readMethod t true 256 (field r 0x18 8) [] with
          | .bad c a s => .bad c a s
          | .held va h s => .held va h s
          | .ok ws s => .ok { t with close := ws } s

/-- Write a clear value over the bytes of a plane's pages. -/
def State.clearPlane (s : State) (core : Nat) (pages : KeyMap Nat) (value sz : Nat) (ps : List (Nat × Nat × Nat)) : State :=
  ps.foldl (fun s p =>
    let pa := pages.at p.1 0 * 65536 + p.2.1 % 65536
    let bs := (List.range p.2.2).map fun i => (leBytes sz value).getD ((p.2.1 + i) % sz) 0
    let s := { s with mem := s.mem.writeBytes pa bs }
    let s := s.updCore core fun c => c.dropSectors pa p.2.2
    s.freshLines ((List.range (p.2.2 / 64)).map fun i => pa / 64 + i)) s

/-- A plane line that no channel holds: its address. -/
def State.absentLine (s : State) (pages : KeyMap Nat) (ps : List (Nat × Nat × Nat)) : Option Nat :=
  ps.findSome? fun p =>
    let pa := pages.at p.1 0 * 65536 + p.2.1 % 65536
    ((List.range (p.2.2 / 64)).find? fun i => s.lineFault (pa + 64 * i) == some .memoryUnavailable).map fun i =>
      p.2.1 + 64 * i

/-- RTOPEN's failure result: no trap (R247). -/
def State.noStream (s : State) (gid ei : Nat) (d : BitVec 6) (q : BitVec 4) : State :=
  (s.updGroup gid fun g => (g.setG d.toNat 0).setQ q.toNat true).finish gid ei

/-- Open the stream: clear the planes, and the handle is on its way. -/
def State.openStream (s : State) (gid ei : Nat) (g : Group) (d : BitVec 6) (q : BitVec 4) (clr : Bool) (i : Nat)
    (t : Stream) : State :=
  let gen := (s.streams.at i {}).gen
  let t := { t with gen }
  let s := if clr then
      let s := s.clearPlane g.core t.pages t.clearc.toNat t.sampleBytes (planePages t.base.toNat (t.planeBytes t.sampleBytes))
      if t.dbase = 0 then s
      else s.clearPlane g.core t.pages t.cleard.toNat 4 (planePages t.dbase.toNat (t.planeBytes 4))
    else s
  let s := { s with streams := s.streams.put i t }
  (s.updGroup gid fun x =>
    let x := (x.emptyG d.toNat).emptyQ q.toNat
    { x with fills := x.fills ++ [{ g := [(d, streamHandle i t)], q := [(q, false)] }] }).finish gid ei

/-- The group's earlier stores have their order against RTOPEN's accesses (R247). -/
def Group.storesOut (g : Group) : Bool := (g.fifo.all fun o => !o.translated) && g.logOrder.isEmpty

/-- RTOPEN from its start; `stay` is the entry waiting at it. -/
def State.tryOpen (s : State) (gid ei : Nat) (g : Group) (d : BitVec 6) (q : BitVec 4) (clr : Bool) (desc : DWord)
    (stay : Nat → Option Held → State → State) : State :=
  let trap (c : Cause) (a : Nat) (s : State) : State := s.takeTrap gid ei { cause := c, addr := .ofNat 64 a }
  if desc.toNat % 64 != 0 then trap .misaligned desc.toNat s
  else match s.streams.find? fun x => x.2.live && x.2.ctx == g.ctx && x.2.desc == desc with
  | some (i, t) =>
    if t.closing then stay desc.toNat none s
    else (s.updGroup gid fun g => (g.setG d.toNat (streamHandle i t)).setQ q.toNat false).finish gid ei
  | none =>
    if !g.storesOut then stay desc.toNat none s
    else match s.prepareStream g desc with
    | .bad c a s => trap c a s
    | .held va h s => stay va (some h) s
    | .ok t s =>
      match s.freeStream with
      | none => s.noStream gid ei d q
      | some i =>
        if 16384 < s.methodUsed (ctxVf g.ctx) + t.methodWords then s.noStream gid ei d q
        else match State.mapPlanes t t.allPages [] s with
        | .bad c a s => trap c a s
        | .held va h s => stay va (some h) s
        | .ok pages s =>
          match if clr then s.absentLine pages t.allPages else none with
          | some a => trap .memoryUnavailable a s
          | none => s.openStream gid ei g d q clr i { t with pages }

/-- RTOPEN (R246, R247). -/
def execRtopen (d a : BitVec 6) (q : BitVec 4) (c w : Bool) (s : State) : Result :=
  issueWait { gr := [a.toNat], gw := [d.toNat], qw := [q.toNat], trp := w } s
    (fun gid g ei _ =>
      if g.fencing then s.block gid ei
      else
        let desc := g.gAt a.toNat
        s.tryOpen gid ei g d q c desc fun va h s =>
          (s.beginWait gid ei { instr := .rtopen d a q c w, x := desc, y := .ofNat 64 va }).updEntry gid ei fun e =>
            { e with held := h })
    (fun gid g ei e w =>
      match e.fail with
      | some f => (s.updEntry gid ei fun e => { e with fail := none }).takeTrap gid ei { cause := f, addr := w.y }
      | none =>
        if e.held.isSome then s.block gid ei
        else s.tryOpen gid ei g d q c w.x fun va h s =>
          (s.setWait gid ei { w with y := .ofNat 64 va }).updEntry gid ei fun e =>
            { e with held := h, blocked := true })

/-! ### Runs (R79, R240, R243, R244) -/

/-- Samples a fragment covers on a target, rising (R233). -/
def Stream.covered (t : Stream) (f : Frag) : List Nat := (List.range t.count).filter fun k => f.cov.getLsbD k

/-- Two runs serve one pixel. -/
def Run.samePixel (a b : Run) : Bool := a.stream == b.stream && a.frag.x == b.frag.x && a.frag.y == b.frag.y

/-- Put a run at the end of the Shore units' queue, or behind a held one of its pixel. -/
def State.addRun (s : State) (r : Run) : State :=
  if s.shoreHeld.any r.samePixel then { s with shoreHeld := s.shoreHeld ++ [r] } else { s with shoreQ := s.shoreQ ++ [r] }

/-- Apply a fragment: its runs, one for each covered sample (R240). -/
def State.applyFrag (s : State) (i : Nat) (t : Stream) (f : Frag) : State :=
  match t.covered f with
  | [] => s
  | k :: rest => s.addRun { stream := i, frag := f, sample := k, rest }

/-- The acknowledgement of a fragment fills its lane of the acceptance predicate (R249). -/
def Group.ack (g : Group) (f : Frag) (ok : Bool) : Group :=
  match g.posts.find? fun p => p.id == f.post with
  | none => g
  | some p =>
    let m := laneBit f.lane.val
    let g := if p.pd = 0 then g else (g.setP p.pd.toNat m fun _ => ok).fullP p.pd.toNat m
    { g with posts := g.posts.filterMap fun q =>
        if q.id == f.post then
          let left := q.waiting &&& ~~~ m
          if left = 0 then none else some { q with waiting := left }
        else some q }

/-- The acknowledgement reaches its group. -/
def State.ack (s : State) (f : Frag) (ok : Bool) : State := s.updGroup f.gid fun g => g.ack f ok

/-- The active run ends: its next sample starts, or its fragment is done (R240). -/
def State.endRunOf (s : State) : State :=
  match s.shoreQ with
  | [] => s
  | r :: q =>
    match r.rest with
    | k :: rest => { s with shoreQ := { stream := r.stream, isClose := r.isClose, frag := r.frag, sample := k, rest } :: q }
    | [] =>
      let s := { s with shoreQ := q }
      if !r.isClose && (s.streams.at r.stream {}).comm then s.ack r.frag true else s

/-- The active run and the later ones of its pixel wait for a page (R355). -/
def State.holdRun (s : State) (h : Held) : State :=
  match s.shoreQ with
  | [] => s
  | r :: q =>
    { s with shoreQ := q.filter fun x => !r.samePixel x
             shoreHeld := s.shoreHeld ++ ({ r with held := some h } :: q.filter fun x => r.samePixel x) }

/-- Runs whose page has arrived go on, the later ones of their pixels behind them (R359). -/
def State.resumeRuns (s : State) (sel : Held → Bool) : State :=
  let woken := s.shoreHeld.filter fun r => r.held.any sel
  let go := s.shoreHeld.filter fun r => woken.any r.samePixel
  { s with shoreHeld := s.shoreHeld.filter fun r => !(woken.any r.samePixel)
           shoreQ := (go.map fun r => { r with held := none }) ++ s.shoreQ }

/-- The stream of the active run and the run. -/
def State.activeRun (s : State) : Option (Stream × Run) :=
  match s.cur, s.shoreQ with
  | .shore, r :: _ => some (s.streams.at r.stream {}, r)
  | _, _ => none

/-- A fragment field (R241). -/
def Run.fragField (r : Run) (sel : Nat) : Word :=
  match sel with
  | 0 => .ofNat 32 r.frag.x
  | 1 => .ofNat 32 r.frag.y
  | 2 => r.frag.psn.zeroExtend 32
  | 3 => r.frag.cov.zeroExtend 32
  | 4 => r.frag.depth
  | 5 => r.frag.color
  | 6 => .ofNat 32 r.sample
  | k => .ofNat 32 (r.frag.color.toNat / 256 ^ (k - 7) % 256)

/-- The address of a target field (R241). -/
def Stream.fieldAt (t : Stream) (r : Run) (sel : Nat) : Nat :=
  let k := if r.isClose then 0 else r.sample
  match sel with
  | 0 => t.colorAt r.frag.x r.frag.y k
  | 1 => t.colorAt r.frag.x r.frag.y k + 4
  | 2 => t.depthAt r.frag.x r.frag.y k
  | n => t.colorAt r.frag.x r.frag.y (n - 8)

/-- A Shore unit's fault ends the context with reason 4 (R355). -/
def State.shoreFault (s : State) (t : Stream) (c : Cause) (va : Nat) : State := s.killContext t.ctx 4 c.code (.ofNat 64 va)

/-- MFRG (R242). -/
def execMfrg (d : BitVec 7) (sel : BitVec 4) (s : State) : Result :=
  match s.activeRun with
  | none => illegalWord s
  | some (_, r) => .next (s.runNext fun x => { x with m := vecMod x.m d.toNat fun _ => r.fragField sel.toNat })

/-- MTLD (R240, R242): the field as the run's buffered writes leave it; a plane page needs R and W (R354). -/
def execMtld (d : BitVec 7) (sel : BitVec 4) (s : State) : Result :=
  match s.activeRun with
  | none => illegalWord s
  | some (t, r) =>
    let a := t.fieldAt r sel.toNat
    let land (s : State) (v : Word) : State := s.runNext fun x => { x with m := vecMod x.m d.toNat fun _ => v }
    match lastFor r.buf a with
    | some v => .next (land s v)
    | none => match s.fetchBytes t.ctx a 4 t.priv .atomic with
      | .ok b s => .next (land s (.ofNat 32 (leNat b)))
      | .cause c va s => .next (s.shoreFault t c va)
      | .held h s => .next (s.holdRun h)

/-- MTST (R240, R242): a buffered write. -/
def execMtst (a : BitVec 7) (sel : BitVec 4) (s : State) : Result :=
  match s.activeRun with
  | none => illegalWord s
  | some (t, r) =>
    .next (s.runNext fun x => { x with buf := x.buf ++ [(t.fieldAt r sel.toNat, vecGet r.m a.toNat 0)] })

/-- MDSC (R240, R242). -/
def execMdsc (p : BitVec 6) (n : Bool) (s : State) : Result :=
  match s.activeRun with
  | none => illegalWord s
  | some (_, r) =>
    .next (if (r.laneIn.p p.toNat) != n then s.endRunOf else s.runNext fun x => x)

/-- Translate the buffered writes of a run: physical address and word. -/
def State.commitEnds (t : Stream) : List (Nat × Word) → List (Nat × Word) → State → Open (List (Nat × Word))
  | [], out, s => .ok out s
  | (va, w) :: rest, out, s =>
    match s.reach t.ctx va .store t.priv with
    | .ok pa s => State.commitEnds t rest (out ++ [(pa, w)]) s
    | .cause c va s => .bad c va s
    | .held h s => .held va h s

/-- MEND (R240, R242, R244): every buffered write commits at once. -/
def execMend (s : State) : Result :=
  match s.activeRun with
  | none => illegalWord s
  | some (t, r) =>
    match State.commitEnds t r.buf [] s with
    | .bad c va s => .next (s.shoreFault t c va)
    | .held _ h s => .next (s.holdRun h)
    | .ok ws s =>
      let s := { s with mem := ws.foldl (fun (m : Memory) (x : Nat × Word) => m.writeBytes x.1 (leBytes 4 x.2.toNat)) s.mem }
      .next (s.freshPixel t r.frag.x r.frag.y).endRunOf

/-! ### Fragments at a Shore unit (R235, R236, R238) -/

/-- Slots of a unit that fragments take: held ones and those whose runs are queued; each covered sample counts. -/
def State.slotsTaken (s : State) (unit : Nat) (reserved : Bool) : Nat :=
  let held := s.streams.foldl (fun n t =>
    n + (t.2.held.filter fun f => f.1 == unit && f.2.reserved == reserved).foldl (fun m f =>
      m + (t.2.covered f.2).length) 0) 0
  (s.shoreQ ++ s.shoreHeld).foldl (fun n r =>
    let t := s.streams.at r.stream {}
    if !r.isClose && !t.comm && r.frag.reserved == reserved && s.shoreUnit t r.frag.x r.frag.y == unit then
      n + 1 + r.rest.length
    else n) held

/-- Apply what a unit holds at or behind its view, in PSN order, equal PSNs in arrival order (R236). -/
def State.applyHeld (s : State) (i unit : Nat) : State :=
  match s.streams.find i with
  | none => s
  | some t =>
    let view := t.views.at unit 0
    let due (f : Nat × Frag) : Bool := f.1 == unit && (f.2.psn == view || psnBehind f.2.psn view)
    let now := sortBy (fun f : Nat × Frag => psnRank f.2.psn view) (t.held.filter due)
    let s := s.updStream i fun t => { t with held := t.held.filter fun f => !due f }
    now.foldl (fun s f => s.applyFrag i t f.2) s

/-- A fragment is refused: its predicate reads false, or with PD = 0 it is sent again (R249). -/
def State.refuseFrag (s : State) (i unit : Nat) (f : Frag) : State :=
  match (s.groups.at f.gid {}).posts.find? fun p => p.id == f.post with
  | some p => if p.pd = 0 then s.updStream i fun t => { t with flight := t.flight ++ [(unit, { f with resent := true })] } else s.ack f false
  | none => s

/-- FRAGMENT_ARRIVAL of the idx-th fragment in flight to a stream: R235's admission, or R238's application. A fragment that
another of its group to its unit precedes, and one that waits for a reserved slot, stay in flight. -/
def State.arriveFrag (s : State) (i idx : Nat) : State :=
  match s.streams.find i with
  | none => s
  | some t =>
    match t.flight[idx]? with
    | none => s
    | some (unit, f) =>
      let ahead := s.streams.any fun o => o.1 != i && o.2.flight.any fun x =>
        x.1 == unit && x.2.gid == f.gid && !x.2.resent && x.2.post < f.post
      let first := !ahead && !((t.flight.take idx).any fun x => x.1 == unit && x.2.gid == f.gid)
      let n := (t.covered f).length
      let δ := psnDist f.psn (t.views.at unit 0)
      let gone := s.updStream i fun t => { t with flight := t.flight.eraseIdx idx }
      let accept (reserved : Bool) : State :=
        ((gone.updStream i fun t => { t with held := t.held ++ [(unit, { f with reserved })] }).ack f true).applyHeld i unit
      if !first then s
      else if t.comm then gone.applyFrag i t f
      else if δ = 0 then (if s.slotsTaken unit true + n ≤ 512 then accept true else s)
      else if δ < 4096 then
        if s.slotsTaken unit false + n ≤ 7680 then accept false else gone.refuseFrag i unit f
      else if δ < 2 ^ 23 then gone.refuseFrag i unit f
      else ((gone.updStream i fun t => { t with late := true }).ack f true)

/-- FRONTIER_VIEW: an advance of F reaches a unit, which applies what it may (R234, R236). -/
def State.viewFrontier (s : State) (i unit : Nat) : State :=
  match s.streams.find i with
  | none => s
  | some t =>
    if t.live && (s.vf (ctxVf t.ctx)).shoreUnits.contains unit then
      (s.updStream i fun t => { t with views := t.views.put unit t.f }).applyHeld i unit
    else s

/-! ### FPOST (R248, R249) -/

/-- The fragment of a lane (R233). -/
def Group.fragment (g : Group) (gid post a : Nat) (l : Fin 128) : Frag :=
  let xy := (g.vAt a l).toNat
  let cp := (g.vAt (a + 1) l).toNat
  { gid, post, lane := l, x := xy % 65536, y := xy / 65536, cov := .ofNat 8 (cp / 2 ^ 24), psn := .ofNat 24 cp
    depth := g.vAt (a + 2) l, color := g.vAt (a + 3) l }

/-- The fragment lies in the target and covers a sample (R249). -/
def Stream.takes (t : Stream) (f : Frag) : Bool := f.x ≤ t.wm1 && f.y ≤ t.hm1 && !(t.covered f).isEmpty

/-- Post the fragments of a bundle: dropped lanes read true at once, the others are sent in lane order. -/
def State.postFrags (s : State) (gid ei : Nat) (g : Group) (m : Mask) (p : BitVec 6) (a i : Nat) (t : Stream) (h : DWord)
    (wt : Wait) : State :=
  let post := g.accSeq
  let fs := (lanesIn m).map fun l => g.fragment gid post a l
  let sent := fs.filter fun f => t.takes f
  let away := maskOfList (sent.map fun f => f.lane)
  let s := s.updStream i fun t => { t with flight := t.flight ++ sent.map fun f => (s.shoreUnit t f.x f.y, f) }
  let s := s.updGroup gid fun g =>
    let g := (g.setP p.toNat (m &&& ~~~ away) fun _ => true).emptyP p.toNat away
    if away = 0 then { g with accSeq := post + 1 }
    else { g with accSeq := post + 1, posts := g.posts ++ [{ id := post, pd := p, handle := h, waiting := away }] }
  if p = 0 && away != 0 then s.beginWait gid ei { wt with ref := post } else s.finish gid ei

/-- The stream a wait at FSEAL seals. -/
def Wait.seals (w : Wait) : Option DWord :=
  match w.instr with
  | .fseal _ _ _ => some w.x
  | _ => none

/-- A seal of the group on a stream is not accepted yet: it stands in the FIFO, or its entry still waits (R249, R250). -/
def Group.sealing (g : Group) (h : DWord) : Bool :=
  (g.fifo.any fun o => match o with
    | .fseal k _ _ => k == h
    | .late w _ => w.seals == some h
    | _ => false) || g.entries.any fun e => e.wait.any fun w => w.seals == some h

/-- FPOST (R248, R249). -/
def execFpost (p : BitVec 6) (a : BitVec 7) (gr : BitVec 6) (w : Bool) (s : State) : Result :=
  let n : Need := { vr := (List.range 4).map fun i => a.toNat + i, gr := [gr.toNat], pw := [p.toNat], trp := w
                    roles := [.vector, .any] }
  issueWait n s
    (fun gid g ei e =>
      let h := g.gAt gr.toNat
      match s.streamOf g.ctx h with
      | none => s.takeTrap gid ei badHandle
      | some (i, t) =>
        if g.sealing h || !s.viewsReached t then s.block gid ei
        else s.postFrags gid ei g e.mask p a.toNat i t h { instr := .fpost p a gr w })
    (fun gid g ei _ wt => if g.posts.any fun q => q.id == wt.ref then s.block gid ei else s.finish gid ei)

/-! ### FSEAL (R250) -/

/-- FSEAL's entry into the store FIFO, once the earlier posts are acknowledged. -/
def State.trySeal (s : State) (gid ei : Nat) (g : Group) (seq : Nat) (h psn : DWord) (stay : State) : State :=
  if g.fencing || g.fifoFull || g.posts.any fun p => p.id < seq then stay
  else (s.pushFifo gid (.fseal h (psn.truncate 24) seq)).finish gid ei

/-- FSEAL (R250). -/
def execFseal (a b : BitVec 6) (w : Bool) (s : State) : Result :=
  issueWait { gr := [a.toNat, b.toNat], trp := w } s
    (fun gid g ei _ =>
      let h := g.gAt a.toNat
      match s.streamOf g.ctx h with
      | none => s.takeTrap gid ei badHandle
      | some _ =>
        s.trySeal gid ei g g.accSeq h (g.gAt b.toNat)
          (s.beginWait gid ei { instr := .fseal a b w, x := h, y := g.gAt b.toNat }))
    (fun gid g ei _ w => s.trySeal gid ei g w.seq w.x w.y (s.block gid ei))

/-- FSEAL_ACCEPT at the home slice; none while the seal is held (R234). -/
def State.acceptSeal (s : State) (ctx : Nat) (h : DWord) (psn : BitVec 24) : Option State :=
  match s.streamOf ctx h with
  | none => some s
  | some (i, t) =>
    let δ := psnDist psn t.f
    if δ < 4096 then
      let (f, b) := slide 4097 t.f (if t.bitmap.contains psn then t.bitmap else psn :: t.bitmap)
      some (s.updStream i fun t => { t with f, bitmap := b })
    else if δ < 2 ^ 23 then none
    else some s

/-! ### RTSYNC (R251) -/

/-- Every held fragment of a stream below a PSN has been applied. -/
def State.appliedBelow (s : State) (i : Nat) (t : Stream) (p : BitVec 24) : Bool :=
  (t.held.all fun f => !psnBehind f.2.psn p) &&
    (s.shoreQ ++ s.shoreHeld).all fun r => r.stream != i || r.isClose || !psnBehind r.frag.psn p

/-- RTSYNC's test of an open stream, and its return. -/
def State.testRtsync (s : State) (gid ei : Nat) (g : Group) (i : Nat) (t : Stream) (p : BitVec 24) (stay : State) : State :=
  if !t.closing && !psnBehind t.f p && s.appliedBelow i t p then (s.finish gid ei).acquireTarget g.core t else stay

/-- RTSYNC (R251): a wait that the stream's close overtakes ends with it, when the close has acquired for it. -/
def execRtsync (a b : BitVec 6) (w : Bool) (s : State) : Result :=
  issueWait { gr := [a.toNat, b.toNat], trp := w } s
    (fun gid g ei _ =>
      let h := g.gAt a.toNat
      let p := g.gAt b.toNat
      match s.streamOf g.ctx h with
      | none => s.takeTrap gid ei badHandle
      | some (i, t) =>
        s.testRtsync gid ei g i t (p.truncate 24) (s.beginWait gid ei { instr := .rtsync a b w, x := h, y := p }))
    (fun gid g ei _ w =>
      let i := w.x.toNat % 65536
      let t := s.streams.at i {}
      if !t.live || t.gen != bits w.x.toNat 63 48 then s.finish gid ei
      else s.testRtsync gid ei g i t (w.y.truncate 24) (s.block gid ei))

/-! ### RTREL (R252) -/

/-- RTREL (R252): the Shore commits made before it stand in memory already. -/
def execRtrel (a : BitVec 6) (sc : BitVec 3) (w : Bool) (s : State) : Result :=
  issueWait { gr := [a.toNat], trp := w } s
    (fun gid g ei _ =>
      if !(s.vf (ctxVf g.ctx)).grants sc.toNat then s.takeTrap gid ei { cause := .scopeDenied }
      else match s.streamOf g.ctx (g.gAt a.toNat) with
      | none => s.takeTrap gid ei badHandle
      | some _ =>
        if s.releaseReady g sc.toNat then s.finish gid ei else s.beginWait gid ei { instr := .rtrel a sc w })
    (fun gid g ei _ _ => if s.releaseReady g sc.toNat then s.finish gid ei else s.block gid ei)

/-! ### RTCLOSE (R253) -/

/-- The group's posts and seals before a place in its issue order are accepted. -/
def Group.postsSettled (g : Group) (seq : Nat) : Bool :=
  (g.posts.all fun p => seq ≤ p.id) &&
    (g.fifo.all fun o => match o with
      | .fseal _ _ q => seq < q
      | .late w _ => w.seals.isNone || seq < w.seq
      | _ => true) &&
    g.entries.all fun e => e.wait.all fun w => w.seals.isNone || seq < w.seq

/-- The group's accesses before a place in its issue order are performed. -/
def Group.earlierDone (g : Group) (seq : Nat) : Bool :=
  (g.fifoHead.all fun o => o.acc.any fun a => seq ≤ a) && g.logsAfter (seq - 1)

/-- No run of a stream is left. -/
def State.runsDone (s : State) (i : Nat) : Bool := (s.shoreQ ++ s.shoreHeld).all fun r => r.stream != i

/-- Seal every PSN: every unit receives F0, what is held applies in order from F0, what is in flight is lost, the handle names nothing any more. -/
def State.sealAll (s : State) (i : Nat) (t : Stream) : State :=
  let s := ((s.vf (ctxVf t.ctx)).shoreUnits).foldl (fun s u => s.viewFrontier i u) s
  let t := s.streams.at i t
  let now := sortBy (fun f : Nat × Frag => psnDist f.2.psn t.f) t.held
  let s := s.updStream i fun t => { t with held := [], flight := [], closing := true }
  let s := t.flight.foldl (fun s f => s.ack f.2 false) s
  now.foldl (fun s f => s.applyFrag i t f.2) s

/-- The close method's runs over every pixel (R243). -/
def State.addCloseRuns (s : State) (i : Nat) (t : Stream) : State :=
  if t.close.isEmpty then s
  else
    let runs := (List.range (t.hm1 + 1)).flatMap fun y => (List.range (t.wm1 + 1)).map fun x =>
      ({ stream := i, isClose := true, frag := { x, y } } : Run)
    { s with shoreQ := s.shoreQ ++ runs }

/-- RTCLOSE's status word. -/
def closeStatus (t : Stream) : DWord := .ofNat 64 ((if t.late then 2 ^ 32 else 0) + t.f.toNat)

/-- The cores whose groups wait at RTSYNC on a stream acquire its tiles (R251). -/
def State.wakeSyncs (s : State) (i : Nat) (t : Stream) : State :=
  s.groups.foldl (fun s g =>
    if (g.2.entries ++ g.2.saved).any fun e => e.wait.any fun w => match w.instr with
      | .rtsync _ _ _ => w.x == streamHandle i t
      | _ => false
    then s.acquireTarget g.2.core t else s) s

/-- A stream's last step: its commits are made, waiting RTSYNCs acquire, and the target entry is freed (R253). -/
def State.freeTarget (s : State) (i : Nat) (t : Stream) : State :=
  (s.wakeSyncs i t).updStream i fun t =>
    { t with live := false, closing := false, gen := nextGen t.gen, method := [], close := [] }

/-- RTCLOSE's last step: the entry is freed and the status written. -/
def State.endClose (s : State) (gid ei : Nat) (d : BitVec 6) (i : Nat) (t : Stream) : State :=
  let s := s.freeTarget i t
  (s.updGroup gid fun g => g.setG d.toNat (closeStatus t)).finish gid ei

/-- RTCLOSE from one phase on: 0 own posts and seals, 1 the held fragments, 2 the close method and the release. `seq` is its
place in the group's issue order. -/
def State.closePhase (s : State) (gid ei : Nat) (g : Group) (d : BitVec 6) (h : DWord) (seq phase : Nat) (fresh : Bool)
    (put : Nat → State → State) : State :=
  let stay (s : State) : State := if fresh then put phase s else s.block gid ei
  match phase with
  | 0 =>
    match s.streamOf g.ctx h with
    | none => s.takeTrap gid ei badHandle
    | some (i, t) => if g.postsSettled seq then put 1 (s.sealAll i t) else stay s
  | 1 =>
    let i := h.toNat % 65536
    if s.runsDone i then put 2 (s.addCloseRuns i (s.streams.at i {})) else stay s
  | _ =>
    let i := h.toNat % 65536
    if s.runsDone i && g.earlierDone seq then s.endClose gid ei d i (s.streams.at i {}) else stay s

/-- RTCLOSE (R253). -/
def execRtclose (d a : BitVec 6) (w : Bool) (s : State) : Result :=
  issueWait { gr := [a.toNat], gw := [d.toNat], trp := w } s
    (fun gid g ei _ =>
      let h := g.gAt a.toNat
      s.closePhase gid ei g d h g.accSeq 0 true fun k s =>
        s.beginWait gid ei { instr := .rtclose d a w, x := h, phase := k })
    (fun gid g ei _ wt => s.closePhase gid ei g d wt.x wt.seq wt.phase false fun k s => s.setWait gid ei { wt with phase := k })

end Sys2Proof.Machine
end

