-- ==== Sys2Proof/Machine/Texture.lean ====
section
/-! DEFINITION. Sys2Proof/Machine/Texture.lean: TEX and TLD: the descriptor, coordinates, addressing, filtering and decoding
(R161 to R166), and the tiled layout of targets (R229). -/
namespace Sys2Proof.Machine

/-! ### Layout (R161, R229) -/

/-- Bytes of one sample of a colour format (R229). -/
def sampleBytes (format : Nat) : Nat := if format = 2 then 8 else 4

/-- Offset of sample k of pixel (x, y) in a tiled plane of width w, n samples of sz bytes (R229). -/
def tileOffset (w n sz x y k : Nat) : Nat :=
  let tw := (w + 7) / 8
  let tile := y / 8 * tw + x / 8
  let pix := y % 8 * 8 + x % 8
  tile * (64 * n * sz) + (pix * n + k) * sz

/-- The first field of a texture descriptor that breaks R161; `tex` refuses samples (R166). -/
def texBad (tex : Bool) (r : List Byte) : Option Nat :=
  let layout := field r 9 1
  let samples := field r 0xA 1
  ([(0x00, field r 0 8 % 64 == 0), (0x08, field r 8 1 ≤ 4), (0x09, layout ≤ 1),
    (0x0A, samples ≤ 3 && (samples == 0 || (layout == 1 && !tex))), (0x0B, field r 0xB 1 == 0),
    (0x0C, field r 0xC 2 ≤ 16383), (0x0E, field r 0xE 2 ≤ 16383),
    (0x10, if layout = 0 then field r 0x10 4 % 16 == 0 else field r 0x10 4 == 0),
    (0x14, field r 0x14 12 == 0)].find? fun c => !c.2).map fun c => c.1

/-- The address of sample k of texel (x, y) of a descriptor. -/
def texelAddr (r : List Byte) (x y k : Nat) : DWord :=
  let sz := sampleBytes (field r 8 1)
  let off := if field r 9 1 = 0 then y * field r 0x10 4 + x * sz
    else tileOffset (field r 0xC 2 + 1) (2 ^ field r 0xA 1) sz x y k
  .ofNat 64 (field r 0 8 + off)

/-! ### Decoding (R162) -/

/-- The value c / d, exact enough for one rounding into FP32. -/
def ratio (c d : Nat) : Val :=
  let n := c * 2 ^ 40 / d
  sticky false (n * d == c * 2 ^ 40) n (-40)

/-- The four channels of a texel as FP32 bits. A stored NaN keeps its bits: R166 names no step but decoding, R83 makes NaN
results canonical, and the model follows R166 (log 63). -/
def decodeTexel (format : Nat) (bs : List Byte) : List Nat :=
  let w := leNat bs
  let un (c d : Nat) : Nat := (toF32 0 (ratio c d)).1
  match format with
  | 0 => (List.range 4).map fun n => un (w / 256 ^ n % 256) 255
  | 1 => [un (w % 1024) 1023, un (w / 2 ^ 10 % 1024) 1023, un (w / 2 ^ 20 % 1024) 1023, un (w / 2 ^ 30 % 4) 3]
  | 2 => (List.range 4).map fun n => (toF32 0 (decodeF .f16 (w / 65536 ^ n % 65536))).1
  | _ => [w % 2 ^ 32, 0, 0, 0x3F800000]

/-- The flush of R162: a subnormal becomes a zero of its sign, a NaN the canonical one. -/
def flushF32 (b : Nat) : Nat :=
  if b / 2 ^ 23 % 256 = 0 then b / 2 ^ 31 * 2 ^ 31
  else if b / 2 ^ 23 % 256 = 255 && b % 2 ^ 23 != 0 then 0x7FC00000
  else b

/-! ### Coordinates (R163, R164) -/

/-- floor(v × n) of a coordinate; NaN and infinity count as 0. -/
def floorTimes (v : Val) (n : Nat) : Int :=
  match v with
  | .fin neg m e =>
    let x : Int := if neg then -((m * n : Nat) : Int) else ((m * n : Nat) : Int)
    if 0 ≤ e then x * 2 ^ e.toNat else x.fdiv (2 ^ (-e).toNat)
  | _ => 0

/-- An index brought into range: 0 wrap, 1 clamp, 2 mirror (R163). -/
def wrapIndex (mode : Nat) (i : Int) (w : Nat) : Nat :=
  match mode with
  | 0 => (i.emod w).toNat
  | 1 => (min (max i 0) (w - 1 : Nat)).toNat
  | _ => let m := (i.emod (2 * w : Nat)).toNat; if m < w then m else 2 * w - 1 - m

/-- The texels TEX reads, and the weights of the second column and row in 256ths; none with a nearest filter. -/
def texPoints (m : BitVec 4) (r : List Byte) (u v : Word) : List (Nat × Nat) × Option (Nat × Nat) :=
  let w := field r 0xC 2 + 1
  let h := field r 0xE 2 + 1
  let sx := if m.getLsbD 3 then 1 else w
  let sy := if m.getLsbD 3 then 1 else h
  let mode := m.toNat % 4
  let uv := decodeF .f32 u.toNat
  let vv := decodeF .f32 v.toNat
  if m.getLsbD 2 then
    let xf := floorTimes uv (sx * 256) - 128
    let yf := floorTimes vv (sy * 256) - 128
    let i0 := xf.fdiv 256
    let j0 := yf.fdiv 256
    let x (k : Int) : Nat := wrapIndex mode (i0 + k) w
    let y (k : Int) : Nat := wrapIndex mode (j0 + k) h
    ([(x 0, y 0), (x 1, y 0), (x 0, y 1), (x 1, y 1)], some ((xf - 256 * i0).toNat, (yf - 256 * j0).toNat))
  else ([(wrapIndex mode (floorTimes uv sx) w, wrapIndex mode (floorTimes vv sy) h)], none)

/-- One weighted sum of R164: terms of weight zero left out, one rounding, flushed. -/
def lerp (f a b : Nat) : Nat :=
  let term (w x : Nat) : Val := (mulV (.fin false w (-8)) (decodeF .f32 x)).1
  let sum := if f = 0 then term 256 a else (addV (term (256 - f) a) (term f b)).1
  flushF32 (toF32 0 sum).1

/-- The filtered channels. -/
def filterTexels (wts : Option (Nat × Nat)) (ts : List (List Nat)) : List Word :=
  (List.range 4).map fun c =>
    let t (i : Nat) : Nat := flushF32 ((ts.getD i []).getD c 0)
    match wts with
    | none => .ofNat 32 (t 0)
    | some (fx, fy) => .ofNat 32 (lerp fy (lerp fx (t 0) (t 1)) (lerp fx (t 2) (t 3)))

/-! ### Reads of one lane (R165) -/

/-- What a read of a lane gives. -/
inductive TexOut where
  | ok (bs : List Byte)
  | bad (rank : Nat) (c : Cause) (addr : DWord)
  | log (w : LogWait) (addr : DWord)
  | wait
  deriving DecidableEq, Repr

/-- One read with what its translation leaves behind. -/
structure TexRead where
  out : TexOut
  note : LaneEnd
  touched : List (Nat × Nat) := []
  /-- The port it goes out through, with its address. -/
  far : Option (Nat × DWord) := none

/-- A read of n bytes whose address has been checked. -/
def State.texGet (s : State) (g : Group) (addr : DWord) (n : Nat) (fin : LaneEnd) : TexRead :=
  match fin with
  | .bad r c => { out := .bad r c addr, note := fin }
  | .log w _ _ => { out := .log w addr, note := fin }
  | .loc l _ =>
    match g.forward l n with
    | .wait => { out := .wait, note := fin }
    | .take bs => { out := .ok bs, note := fin }
    | .none =>
      match l with
      | .scratch c o => { out := .ok (s.scratchBytes c o n), note := fin }
      | .fabric _ _ _ => { out := .bad 2 .accessViolation addr, note := fin }
      | .phys pa =>
        if (s.l1Hit g.core (pa / 16)).isSome then { out := .ok (s.l1Bytes g.core 0 pa n), note := fin }
        else match s.lineFault pa with
        | some c => { out := .log (.lost c s.tick) addr, note := .log (.lost c s.tick) none (some pa) }
        | none =>
          match (cxlPort pa).filter fun p => !s.portUp p with
          | some p => { out := .log (.port p false) addr, note := fin }
          | none =>
            { out := .ok (s.l1Bytes g.core 0 pa n), note := fin, touched := [(pa, n)]
              far := (s.farPort pa).map fun p => (p, addr) }

/-- A lane's fetch: what it gives with every read it made. -/
structure TexLane where
  lane : Fin 128
  out : TexOut
  words : List Word := []
  reads : List TexRead := []

/-- What the texel reads of a lane decide: a wait, the first cause in R369's order, a log, or the values. -/
def texDecide (rs : List TexRead) : TexOut :=
  if rs.any fun r => r.out == .wait then .wait
  else
    let worst := rs.foldl (fun acc r => match r.out with
      | .bad k c a => match acc with
        | some (k0, _, _) => if k < k0 then some (k, c, a) else acc
        | none => some (k, c, a)
      | _ => acc) (none : Option (Nat × Cause × DWord))
    match worst with
    | some (k, c, a) => .bad k c a
    | none => (rs.findSome? fun r => match r.out with
      | .log w a => some (TexOut.log w a)
      | _ => none).getD (.ok [])

/-- The bytes the reads gave. -/
def TexRead.bytes (r : TexRead) : List Byte :=
  match r.out with
  | .ok bs => bs
  | _ => []

/-- The fetch of one lane: the descriptor, then the texels that the word names. `chk` ends the checks of an address. -/
def State.texLane (s : State) (g : Group) (i : Instr) (lane : Fin 128) (desc : DWord) (x y : Word)
    (chk : DWord → Nat → LaneEnd) : TexLane :=
  let d := s.texGet g desc 32 (chk desc 32)
  match d.out with
  | .ok r =>
    let tex := match i with
      | .tex _ _ _ _ _ => true
      | _ => false
    match texBad tex r with
    | some o => { lane, out := .bad 2 .accessViolation (desc + BitVec.ofNat 64 o), reads := [d] }
    | none =>
      let sz := sampleBytes (field r 8 1)
      let get (p : Nat × Nat) (k : Nat) : TexRead :=
        let a := texelAddr r p.1 p.2 k
        s.texGet g a sz (chk a sz)
      match i with
      | .tex _ _ _ m _ =>
        let (ps, wts) := texPoints m r x y
        let rs := ps.map fun p => get p 0
        { lane, out := texDecide rs, reads := d :: rs
          words := filterTexels wts (rs.map fun t => decodeTexel (field r 8 1) t.bytes) }
      | .tld _ _ _ m _ =>
        let w : Int := field r 0xC 2 + 1
        let h : Int := field r 0xE 2 + 1
        if x.toInt < 0 || w ≤ x.toInt || y.toInt < 0 || h ≤ y.toInt || 2 ^ field r 0xA 1 ≤ m.toNat then
          { lane, out := .ok [], words := [0, 0, 0, 0], reads := [d] }
        else
          let t := get (x.toNat, y.toNat) m.toNat
          { lane, out := t.out, reads := [d, t]
            words := (decodeTexel (field r 8 1) t.bytes).map fun n => .ofNat 32 n }
      | _ => { lane, out := .ok [], reads := [d] }
  | out => { lane, out, reads := [d] }

/-! ### TEX and TLD -/

/-- The trap the lanes decide (R369). -/
def texTrap (ls : List TexLane) : Option TrapInfo :=
  (ls.foldl (fun acc l => match l.out with
    | .bad r c a => match acc with
      | some (r0, _) => if r < r0 then some (r, { cause := c, addr := a, lane := l.lane.val }) else acc
      | none => some (r, ({ cause := c, addr := a, lane := l.lane.val } : TrapInfo))
    | _ => acc) (none : Option (Nat × TrapInfo))).map fun x => x.2

/-- The lanes that have their values. -/
def texGot (ls : List TexLane) : List (Fin 128 × List Byte) :=
  ls.filterMap fun l => match l.out with
    | .ok _ => some (l.lane, l.words.flatMap fun w => leBytes 4 w.toNat)
    | _ => none

/-- The first read of a lane that goes out through a CXL port: the port and its address. -/
def TexLane.far (l : TexLane) : Option (Nat × DWord) := l.reads.findSome? fun r => r.far

/-- What a texture lane's log entry keeps: its coordinates and its descriptor's address. -/
def texData (x y : Word) (desc : DWord) : List Word := [x, y, desc.truncate 32, (desc >>> 32).truncate 32]

/-- The lanes whose values come through a CXL port, as for LD (R166, R381). -/
def texFar (ls : List TexLane) (data : Fin 128 → List Word) : List FarLane :=
  ls.filterMap fun l => match l.out, l.far with
    | .ok _, some p => some { lane := l.lane, addr := p.2, port := p.1, win := none, off := 0
                              bytes := l.words.flatMap fun w => leBytes 4 w.toNat, data := data l.lane }
    | _, _ => none

/-- Lanes to log, each with its coordinates and its descriptor's address. -/
def texLogs (ls : List TexLane) (x y : Fin 128 → Word) (desc : DWord) : List LogLane :=
  ls.filterMap fun (l : TexLane) => match l.out with
    | .log w a => some ({ lane := l.lane, addr := a, data := texData (x l.lane) (y l.lane) desc, wait := w } : LogLane)
    | _ => none

/-- What the reads leave behind: TLB entries, page requests, records, and fetched sectors. -/
def State.texNotes (s : State) (g : Group) (ls : List TexLane) (who : Option (Nat × Nat)) : State :=
  let s := ls.foldl (fun s l => l.reads.foldl (fun s r => s.noteEnd g .load r.note) s) s
  let touched := ls.flatMap fun l => l.reads.flatMap fun r => r.touched
  (s.fillL1 g.core touched).meter (ctxVf g.ctx) who touched

/-- A texture form. -/
def texForm (i : Instr) (d a : BitVec 7) (gr : BitVec 6) (w : Bool) (s : State) : Result :=
  let regs := [d.toNat, d.toNat + 1, d.toNat + 2, d.toNat + 3]
  issueLogged { vr := [a.toNat, a.toNat + 1], gr := [gr.toNat], vw := regs, trp := w, roles := [.vector, .any] } s
    fun gid g ei e =>
      let desc := g.gAt gr.toNat
      let x (l : Fin 128) : Word := g.vAt a.toNat l
      let y (l : Fin 128) : Word := g.vAt (a.toNat + 1) l
      let ls := (lanesIn e.mask).map fun l =>
        s.texLane g i l desc (x l) (y l) fun ad n => s.laneEnd g l.val ad.toNat n .load
      match texTrap ls with
      | some t => s.takeTrap gid ei t
      | none =>
        if ls.any fun l => l.out == .wait then s.block gid ei
        else
          let src := g.source e i
          let got := texGot (ls.filter fun l => l.far.isNone)
          let s := (s.texNotes g ls (some (gid, src.acc))).updGroup gid fun (g : Group) =>
            let g : Group := regs.foldl (fun g r => g.emptyV r e.mask) g
            let g : Group := { g with accSeq := g.accSeq + 1,
                                      fills := if got.isEmpty then g.fills
                                else g.fills ++ [{ v := landFill i got, mem := some src.acc }] }
            g.logLanes src (texLogs ls x y desc)
          (s.sendFar gid src 0 16 (texFar ls fun l => texData (x l) (y l) desc)).finish gid ei

/-- TEX (R163 to R166). -/
def execTex (d a : BitVec 7) (g : BitVec 6) (m : BitVec 4) (w : Bool) (s : State) : Result :=
  texForm (.tex d a g m w) d a g w s

/-- TLD (R165, R166). -/
def execTld (d a : BitVec 7) (g : BitVec 6) (m : BitVec 3) (w : Bool) (s : State) : Result :=
  texForm (.tld d a g m w) d a g w s

end Sys2Proof.Machine
end

