-- ==== Sys2Proof/Machine/Replay.lean ====
section
/-! DEFINITION. Sys2Proof/Machine/Replay.lean: the replay of logged accesses, what a page reply does to everything that waits on
the page, and timeouts and failures of the ports (R358, R359, R378 to R382, R408, R411). -/
namespace Sys2Proof.Machine

/-! ### Replay of a log entry (R379, R380) -/

/-- Bytes a lane of a logged instruction moves, and its kind of access. -/
def memShape : Instr → Nat × Acc
  | .ld _ _ _ z _ _ => (sizeBytes z.toNat, .load)
  | .st _ _ _ z _ _ => (sizeBytes z.toNat, .store)
  | .atom _ _ _ o _ _ => (aopBytes o.toNat, .atomic)
  | .bowchk _ _ _ _ => (2, .store)
  | .bowset _ _ _ => (1, .store)
  | _ => (1, .load)

/-- A wait on an intermediate page that an entry logged earlier than entry i has (R379). -/
def Group.heldEarlier (g : Group) (i : Nat) (h : Held) : Option Held :=
  (g.logOrder.takeWhile (· != i)).findSome? fun j => (vecGet g.oplog j none).bind fun e => e.lanes.findSome? fun l =>
    match l.wait with
    | .page k => if k.vf == h.vf && k.page == h.page then some k else none
    | _ => none

/-- The address of a logged lane walked again from its start: place, page to wait for, or LOST (R380). -/
def State.againAt (s : State) (g : Group) (lane addr n : Nat) (k : Acc) (lev : Priv) : LaneEnd :=
  match s.locate g lane addr n k with
  | none => .log (.lost .accessViolation s.tick) none none
  | some w => match s.placeEnd g w k lev false with
    | .bad _ c => .log (.lost c s.tick) none none
    | x => x

/-- The same for a lane of entry i, which stays behind an earlier entry on its page. -/
def State.againEnd (s : State) (g : Group) (i : Nat) (l : LogLane) (n : Nat) (k : Acc) (lev : Priv) : LaneAcc :=
  let behind := match l.wait with
    | .page h => g.heldEarlier i h
    | _ => none
  ⟨l.lane, l.addr, match behind with
    | some h => .log (.page h) none none
    | none => s.againAt g l.lane.val l.addr.toNat n k lev⟩

/-- The data a list of logged lanes holds for a lane. -/
def loggedData (ls : List LogLane) (x : Fin 128) : List Word := ((ls.find? fun l => l.lane == x).map fun l => l.data).getD []

/-- The group as a load sees it whose number is acc: its older stores (R173). -/
def Group.asOf (g : Group) (acc : Nat) : Group := { g with fifo := g.fifo.filter fun o => o.acc.any (· < acc) }

/-- Loaded bytes with those of the group's older stores still in the FIFO laid over them (R173). -/
def Group.overlay (g : Group) (acc : Nat) (l : Loc) (bs : List Byte) : List Byte :=
  bs.zipIdx.map fun x => match (g.asOf acc).forward (l.plus x.2) 1 with
    | .take (b :: _) => b
    | _ => x.1

/-- Perform the lanes of a logged load, store or atomic that have their places. -/
def State.performAgain (s : State) (gid : Nat) (g : Group) (src : Source) (n : Nat) (ls : List LaneAcc)
    (data : Fin 128 → List Word) : State :=
  match src.instr with
  | .ld _ _ _ _ h _ =>
    let r := s.loadLanes { g with fifo := [] } h.toNat n (placed ls)
    let s := if h = 0 then r.s.fillL1 g.core (physOf (placed ls) n) else r.s
    let got := r.got.map fun x => match (placed ls).find? fun p => p.1 == x.1 with
      | some p => (x.1, g.overlay src.acc p.2.2 x.2)
      | none => x
    let s := s.updGroup gid fun g => (g.fillRegs src.acc (landFill src.instr got)).logLanes src r.logs
    s.sendFar gid src 0 n r.far
  | .atom _ _ _ o _ _ =>
    let lanes := (placed ls).map fun x =>
      ({ lane := x.1, addr := x.2.1, loc := x.2.2, x := (wordOps (data x.1)).1, y := (wordOps (data x.1)).2 } : AtomLane)
    s.performAtom gid src o.toNat lanes true
  | .bowset _ _ _ =>
    let parts := (placed ls).map fun x =>
      let old := match x.2.2 with
        | .phys pa => s.mem.read pa
        | _ => 0
      ({ lane := x.1, addr := x.2.1, loc := x.2.2, bytes := [bowByte old (((data x.1).headD 0).getLsbD 0)] } : StorePart)
    s.performStore gid src parts
  | _ =>
    let parts := (placed ls).map fun x =>
      ({ lane := x.1, addr := x.2.1, loc := x.2.2, bytes := storeBytesOf (data x.1) n } : StorePart)
    s.performStore gid src parts

/-- Replay a logged texture lane: its descriptor and texels read again. -/
def State.texAgain (s : State) (gid : Nat) (g : Group) (src : Source) (l : LogLane) : State :=
  let desc : DWord := l.data.getD 3 0 ++ l.data.getD 2 0
  let look (g : Group) : TexLane := s.texLane g src.instr l.lane desc (l.data.getD 0 0) (l.data.getD 1 0) fun a n =>
    s.againAt g l.lane.val a.toNat n .load src.lev
  let first := look (g.asOf src.acc)
  let t := if first.out == .wait then look { g with fifo := [] } else first
  let s := s.texNotes g [t] (some (gid, src.acc))
  let far := texFar [t] fun _ => l.data
  let s := s.sendFar gid src 0 16 far
  s.updGroup gid fun g =>
    match t.out with
    | .ok _ => if far.isEmpty then g.fillRegs src.acc (landFill src.instr (texGot [t])) else g
    | .log w a => g.logLanes src [{ l with addr := a, wait := w }]
    | .bad _ c a => g.logLanes src [{ l with addr := a, wait := .lost c s.tick }]
    | .wait => g

/-- The form is a texture form. -/
def isTexture : Instr → Bool
  | .tex _ _ _ _ _ | .tld _ _ _ _ _ => true
  | _ => false

/-- A logged lane has timed out once. -/
def LogLane.timed (l : LogLane) : Bool :=
  match l.wait with
  | .port _ b => b
  | _ => false

/-- Replay the lanes of log entry i of a group that a test picks (R380). -/
def State.replayEntry (s : State) (gid : Nat) (pick : LogLane → Bool) (i : Nat) : State :=
  match s.groups.find gid with
  | none => s
  | some g =>
    match vecGet g.oplog i none with
    | none => s
    | some e =>
      let ls := e.lanes.filter pick
      if ls.isEmpty then s
      else match e.eng with
      | some seq =>
        let timed := ls.any LogLane.timed
        s.putGroup gid { g.freeLog i with engq := g.engq.map fun o =>
          if o.seq == seq then { o with timed := o.timed || timed } else o }
      | none =>
        let first := s.nextTx
        let s := s.updGroup gid fun g =>
          { g with oplog := vecMod g.oplog i fun _ => some { e with lanes := e.lanes.filter fun l => !pick l } }
        let s :=
          if isTexture e.src.instr then ls.foldl (fun s l => s.texAgain gid g e.src l) s
          else
            let (n, k) := memShape e.src.instr
            let ends := ls.map fun l => s.againEnd g i l n k e.src.lev
            let s := s.noteAll g k ends
            let s := s.updGroup gid fun g => g.logLanes e.src (toLog ends (loggedData ls))
            s.performAgain gid g e.src n ends (loggedData ls)
        let s := s.updGroup gid fun g => g.dropLanes i fun _ => false
        if ls.any LogLane.timed then
          { s with txs := s.txs.map fun t => if first ≤ t.id then { t with retried := true } else t }
        else s

/-- Replay the picked lanes of a group in the order in which they were logged (R379). -/
def State.replayGroup (s : State) (gid : Nat) (pick : LogLane → Bool) : State :=
  ((s.groups.at gid {}).logOrder).foldl (fun s i => s.replayEntry gid pick i) s

/-- Turn the picked lanes of a group LOST; a held row fails its engine operation (R158, R380). -/
def Group.loseLanes (g : Group) (pick : LogLane → Bool) (c : Cause) (now : Nat) : Group :=
  g.logOrder.foldl (fun g i =>
    match vecGet g.oplog i none with
    | none => g
    | some e =>
      if !e.lanes.any pick then g
      else match e.eng with
      | some seq =>
        let page := e.lanes.filterMap fun l => match l.wait with
          | .page h => some (h.page, c)
          | _ => none
        let g := g.freeLog i
        { g with engq := g.engq.map fun o =>
            if o.seq == seq then (if page.isEmpty then o.fault c else { o with failed := o.failed ++ page }) else o }
      | none =>
        let lost : LogEntry := { e with lanes := e.lanes.map fun l => if pick l then { l with wait := .lost c now } else l }
        { g with oplog := vecMod g.oplog i fun _ => some lost }) g

/-- A lane waits on a page that a test picks. -/
def LogLane.onPage (sel : Held → Bool) (l : LogLane) : Bool :=
  match l.wait with
  | .page h => sel h
  | _ => false

/-! ### Inbound fabric requests (R362) -/

/-- The permission a kind of request needs at stage 2, with FAB. -/
def fabAllows (kind e : Nat) : Bool :=
  bit e 5 && (kind == 1 || bit e 2) && (kind == 0 || bit e 3)

/-- What a piece of an inbound request meets (R362, R355). -/
inductive InPiece where
  | ok (pa : Nat)
  | miss (page reason ipa : Nat)
  | lost (pa : Nat)
  | refused
  deriving DecidableEq, Repr

/-- Translate and check one piece of an inbound request: `n` bytes at `a`, within one 64 KiB page. -/
def State.inPiece (s : State) (r : Inbound) (a n : Nat) : InPiece :=
  match s.stage2 r.vf a with
  | .lost _ pa => .lost pa
  | .miss page reason => .miss page reason a
  | .ok pa e _ =>
    if !fabAllows r.kind e then .refused
    else
      let first := pa / 64 * 64
      match ((List.range ((pa + n - 1 - first) / 64 + 1)).map (first + 64 * ·)).find? fun x => (s.lineFault x).isSome with
      | some f => .lost f
      | none => .ok pa

/-- Perform an inbound request whose pieces stand at the given physical places, and answer it (R362). -/
def State.performInbound (s : State) (r : Inbound) (pas : List (Nat × Nat × Nat)) : State :=
  if r.kind = 0 then s.send (.reply r.endpt true (pas.flatMap fun p => s.mem.bytes p.1 p.2.2))
  else if r.kind = 1 then
    let mem := pas.foldl (fun (m : Memory) p => m.writeBytes p.1 ((r.data.drop p.2.1).take p.2.2)) s.mem
    { s with mem }.send (.reply r.endpt true [])
  else
    let pa := (pas.map (·.1)).headD 0
    let w := if r.data.length ≤ 9 then 4 else 8
    let o := ((r.data.headD 0).toNat) % 16
    let x : DWord := .ofNat 64 (leNat ((r.data.drop 1).take w))
    let y : DWord := .ofNat 64 (leNat ((r.data.drop (1 + w)).take w))
    let b := aopBytes o
    let old := s.mem.bytes pa b
    let new := aopApply o (.ofNat 64 (leNat old)) x y
    { s with mem := s.mem.writeBytes pa (leBytes b new.toNat) }.send (.reply r.endpt true old)

/-- Serve an inbound request: every piece is translated at stage 2 only and checked before anything is read or
written; a miss holds the request, a refusal refuses it whole (R362). -/
def State.serveInbound (s : State) (r : Inbound) : State :=
  let v := s.vf r.vf
  let refuse_ (s : State) : State := s.send (.reply r.endpt false [])
  let n := if r.kind = 0 then leNat r.data % 65536 else if r.kind = 1 then r.data.length else 1
  if bits r.addr.toNat 63 55 != 0 then refuse_ s
  else if v.mig.any fun m => m.source && !m.quiesced then
    { s with inbound := s.inbound ++ [{ r with held := ⟨r.vf, r.addr.toNat / 65536, 3⟩ }] }
  else
    let pieces := (planePages r.addr.toNat (max n 1)).map fun p => (p.2.1 - r.addr.toNat, p.2.2)
    let ps := pieces.map fun p => s.inPiece r (r.addr.toNat + p.1) p.2
    let lost := ps.findSome? fun p => match p with
      | .lost pa => some pa
      | _ => none
    let miss := ps.findSome? fun p => match p with
      | .miss page reason ipa => some (page, reason, ipa)
      | _ => none
    if ps.contains .refused then refuse_ s
    else match lost, miss with
    | some pa, _ => refuse_ (s.lineRecord pa r.vf 0xFFFF)
    | none, some (page, reason, ipa) =>
      let h : Held := ⟨r.vf, page, reason⟩
      let gone := match v.mig with
        | some m => if reason = 3 && m.source && !m.transit.contains page then some m else none
        | none => none
      match gone with
      | some m => s.send (.redirect r.endpt m.endpt m.target)
      | none =>
        let s := s.request h { ipa, kind := 8 }
        { s with inbound := s.inbound ++ [{ r with held := h }] }
    | none, none =>
      let pas := (List.zip pieces ps).filterMap fun p => match p.2 with
        | .ok pa => some (pa, p.1.1, p.1.2)
        | _ => none
      s.performInbound r pas

/-- Held requests that a test picks are served again. -/
def State.retryInbound (s : State) (sel : Held → Bool) : State :=
  let (go, stay) := s.inbound.partition fun r => sel r.held
  go.foldl State.serveInbound { s with inbound := stay }

/-! ### What waits on a page (R358, R359) -/

/-- What a group still performs for an entry that has ended goes on after a page reply, or ends with it (R278). -/
def FifoOp.onHeld (sel : Held → Bool) (failed : Bool) (o : FifoOp) : Option FifoOp :=
  match o with
  | .late w h => if h.any sel then (if failed then none else some (.late w none)) else some o
  | o => some o

/-- Entries that wait on a page change. -/
def Group.onHeld (g : Group) (sel : Held → Bool) (failed : Bool) (f : Entry → Entry) : Group :=
  let h (e : Entry) : Entry := if e.held.any sel then { f e with held := none, blocked := false } else e
  { g with entries := g.entries.map h, saved := g.saved.map h, fifo := g.fifo.filterMap (FifoOp.onHeld sel failed) }

/-- Copies and copy tasks of a core that wait on a page change. -/
def Core.onHeld (c : Core) (sel : Held → Bool) (fail : Option Cause) : Core :=
  let add (h : Option Held) (fs : List (Nat × Cause)) : List (Nat × Cause) :=
    match h, fail with
    | some k, some c => fs ++ [(k.page, c)]
    | _, _ => fs
  { c with
    copies := c.copies.map fun k =>
      if k.2.held.any sel then (k.1, { k.2 with failed := add k.2.held k.2.failed, held := none }) else k
    copyTasks := c.copyTasks.map fun t =>
      if t.held.any sel then { t with failed := add t.held t.failed, held := none } else t }

/-- Whatever waits on a page goes on: each held access walks again from its start (R359 RETRY, R408). Lanes of a saved
context keep the reply until the restore (R392). -/
def State.wake (s : State) (vf : Nat) (sel : Held → Bool) : State :=
  let s := { s with groups := s.groups.mapAll fun _ g => g.onHeld sel false id
                    cores := s.cores.mapAll fun _ c => c.onHeld sel none }
  let s := s.groups.foldl (fun s x =>
    if s.ctxLive x.2.ctx then s.replayGroup x.1 (LogLane.onPage sel)
    else s.updGroup x.1 fun g => { g with oplog := g.oplog.map fun o => o.map fun e =>
      { e with lanes := e.lanes.map fun l => if l.onPage sel then { l with wait := .retry } else l } }) s
  let s := s.resumeRuns sel
  let s := s.updVf vf fun v => { v with acceptHeld := v.acceptHeld.filter fun a => !sel a.2.2.2 }
  let s := s.retryPending fun p => p.held.any sel
  let s := s.contexts.foldl (fun s c => if ctxVf c.1 == vf then State.flushEvents 65 c.1 s else s) s
  let s := s.flushDead fun k => ctxVf k == vf
  s.retryInbound sel

/-- A launch record that cannot be read is dropped, with an event (R285). -/
def State.dropLaunch (s : State) (a : Nat × Nat × DWord × Held) (c : Cause) : State :=
  let ctx := (s.queues.at a.1 {}).ctx
  let s := { s with queues := s.queues.upd a.1 fun q => { q with elems := q.elems.erase (a.2.1, a.2.2.1) } }
  s.postEvent ctx { addr := a.2.2.1, kind := c.code }

/-- Contexts whose event ring stands on a page that a test picks. -/
def State.ringsOn (s : State) (vf : Nat) (sel : Held → Bool) : List (Nat × DWord) :=
  (s.contexts ++ s.deadRings).filterMap fun c =>
    if ctxVf c.1 != vf || c.2.events.held.isEmpty then none
    else
      let va := c.2.events.base.toNat + 32 * c.2.events.pos
      match (s.asLive c).translate c.1 va .store .s with
      | .miss h _ _ => if sel h then some (c.1, .ofNat 64 va) else none
      | _ => none

/-- Whatever waits on a page fails with a cause, delivered as its kind states (R354, R359). -/
def State.failWaits (s : State) (vf : Nat) (sel : Held → Bool) (c : Cause) : State :=
  let rings := s.ringsOn vf sel
  let s := { s with groups := s.groups.mapAll fun _ g =>
                      (g.onHeld sel true fun e => { e with fail := some c }).loseLanes (LogLane.onPage sel) c s.tick
                    cores := s.cores.mapAll fun _ k => k.onHeld sel (some c) }
  let runs := s.shoreHeld.filter fun r => r.held.any sel
  let s := runs.foldl (fun s r =>
    let t := s.streams.at r.stream {}
    s.shoreFault t c (t.colorAt r.frag.x r.frag.y r.sample)) s
  let drops := (s.vf vf).acceptHeld.filter fun a => sel a.2.2.2
  let s := s.updVf vf fun v => { v with acceptHeld := v.acceptHeld.filter fun a => !sel a.2.2.2 }
  let s := drops.foldl (fun s a => s.dropLaunch a c) s
  let s := s.failPending (fun p => p.held.any sel) c
  let s := rings.foldl (fun s r => s.postErr { addr := r.2, kind := 0x12, vf, ctx := r.1 % 4096 }) s
  let (go, stay) := s.inbound.partition fun r => sel r.held
  go.foldl (fun s r => s.send (.reply r.endpt false [])) { s with inbound := stay }

/-- The contexts that have an access waiting on a page. -/
def State.waitersOn (s : State) (vf : Nat) (sel : Held → Bool) : List Nat :=
  let groups := s.groups.filterMap fun g =>
    let log := g.2.logOrder.any fun i => (vecGet g.2.oplog i none).any fun e => e.lanes.any (LogLane.onPage sel)
    let ents := (g.2.entries ++ g.2.saved).any fun e => e.held.any sel
    let late := g.2.fifo.any fun o => (o.onHeld sel true).isNone
    if log || ents || late then some g.2.ctx else none
  let cores := s.cores.flatMap fun c =>
    (c.2.copies.filterMap fun k => if k.2.held.any sel then some (s.groups.at k.2.gid {}).ctx else none) ++
      c.2.copyTasks.filterMap fun t => if t.held.any sel then some t.ctx else none
  let shore := s.shoreHeld.filterMap fun r => if r.held.any sel then some (s.streams.at r.stream {}).ctx else none
  let queues := (s.vf vf).acceptHeld.filterMap fun a => if sel a.2.2.2 then some (s.queues.at a.1 {}).ctx else none
  let pend := s.pending.filterMap fun p => if p.held.any sel then some p.ctx else none
  (groups ++ cores ++ shore ++ queues ++ pend ++ (s.ringsOn vf sel).map fun r => r.1).eraseDups

/-- The waits of one request: its page and its REASON. -/
def joined (vf page reason : Nat) (h : Held) : Bool := h.vf == vf && h.page == page && h.reason == reason

/-- Act on a page reply (R359). -/
def State.reply (s : State) (vf : Nat) (q : PageReq) (status : Nat) : State :=
  let page := q.ipa / 65536
  let sel := joined vf page q.reason
  let s := s.updVf vf fun v => { v with requests := v.requests.erase q }
  match status with
  | 0 =>
    let s := s.dropIpa vf page
    s.wake vf sel
  | 1 => s.failWaits vf sel .accessViolation
  | 2 => s.failWaits vf sel .memoryUnavailable
  | _ =>
    let s := (s.waitersOn vf sel).foldl (fun s k => s.killContext k 3 0 0) s
    let (go, stay) := s.inbound.partition fun r => sel r.held
    go.foldl (fun s r => s.send (.reply r.endpt false [])) { s with inbound := stay }

/-- Read the replies at the ring's next positions, in ring order (R359). -/
def State.readReplies (vf : Nat) : Nat → State → State
  | 0, s => s
  | n + 1, s =>
    let v := s.vf vf
    let a := v.rpqbase.toNat + 16 * v.rpqpos
    let ph := s.mem.readN (a + 8) 8
    if !bit ph 63 then s
    else
      let tag := s.mem.readN a 4
      let status := (s.mem.read (a + 4)).toNat
      let res := s.mem.readN (a + 5) 3
      let s := { s with mem := s.mem.writeN (a + 8) 8 (ph - 2 ^ 63) }
      let s := s.updVf vf fun v => { v with rpqpos := (v.rpqpos + 1) % max 1 v.rpqlen }
      let s := match v.requests.find? fun q => q.tag == some tag with
        | some q => if 3 < status || res != 0 || ph != 2 ^ 63 then s.postErr { kind := 0x11, vf } else s.reply vf q status
        | none => if v.retired.contains tag then s.updVf vf fun v => { v with retired := v.retired.erase tag }
          else s.postErr { kind := 0x11, vf }
      State.readReplies vf n s

/-- PAGE_REQUEST: the firmware writes the oldest request not yet written into the ring, when a tag and a place are free
(R358). -/
def State.writeRequest (s : State) (vf : Nat) : State :=
  let v := s.vf vf
  match v.requests.find? fun q => q.tag.isNone, (List.range 1024).find? fun t => !(v.requests.any fun q => q.tag == some t) with
  | some q, some t =>
    let a := v.prq.base.toNat + 32 * v.prq.pos
    if bit (s.mem.readN (a + 0x1C) 4) 31 then s
    else
      let bs := leBytes 8 q.ipa ++ leBytes 8 q.va.toNat ++ leBytes 2 q.asid ++ leBytes 2 q.ctx ++ leBytes 1 q.kind ++
        leBytes 1 q.reason ++ leBytes 2 q.core ++ leBytes 4 t ++ leBytes 4 0x80000000
      let s := { s with mem := s.mem.writeBytes a bs }
      (s.updVf vf fun v =>
        { v with prq := { v.prq with pos := (v.prq.pos + 1) % max 1 v.prq.len }
                 requests := v.requests.map fun x => if x == q then { x with tag := some t } else x }).send (.notice vf)
  | _, _ => s

/-! ### Ports (R381) -/

/-- The record of a link of a port (R426). -/
def State.portRecord (s : State) (p : Nat) : State := s.postErr { kind := 0x0B, unit := p, info := Config.freeWord s.tick }

/-- The row that a transaction carried is held, or its operation ends FAULTED (R158, R381). -/
def State.logRowTx (s : State) (t : Tx) (seq : Nat) (w : LogWait) : State :=
  let g := s.groups.at t.gid {}
  match g.engq.find? fun o => o.seq == seq, w with
  | none, _ => s
  | some o, .lost c _ => s.failRow t.gid g (s.crew g.crew) o (s.rowEnds g o o.row) c
  | some o, w =>
    (s.updOp t.gid seq fun o => { o with tx := none }).updGroup t.gid fun g =>
      g.logRow o ((t.addrs.head?.map fun a => a.2).getD 0) w

/-- The copy that a transaction carried waits, or its accesses through a port have failed (R208, R361, R381). -/
def State.logCopyTx (s : State) (core id : Nat) (w : LogWait) : State :=
  let f (c : CopyOp) : CopyOp := match w with
    | .lost f _ => { c with tx := none, far := some f }
    | .port _ timed => { c with tx := none, wait := some w, timed }
    | w => { c with tx := none, wait := some w }
  s.updCore core fun k => { k with copies := KeyMap.upd k.copies id f }

/-- Copies whose wait a test picks go on. -/
def State.resumeCopies (s : State) (pick : LogWait → Bool) : State :=
  let f (_ : Nat) (c : CopyOp) : CopyOp := if c.wait.any pick then { c with wait := none } else c
  { s with cores := s.cores.mapAll fun _ k => { k with copies := KeyMap.mapAll k.copies f } }

/-- A transaction's lanes are logged, waiting on something. -/
def State.logTx (s : State) (t : Tx) (w : LogWait) : State :=
  let lanes := t.lanes.map fun x =>
    ({ lane := x.1, addr := ((t.addrs.find? fun a => a.1 == x.1).map fun a => a.2).getD 0
       data := ((t.data.find? fun a => a.1 == x.1).map fun a => a.2).getD [], wait := w } : LogLane)
  let s := { s with txs := s.txs.filter fun x => x.id != t.id }
  match t.eng, t.copy with
  | some seq, _ => s.logRowTx t seq w
  | none, some c => s.logCopyTx c.1 c.2 w
  | none, none =>
    s.updGroup t.gid fun g =>
      let g := { g with fills := g.fills.filter fun f => f.tx != some t.id }
      g.logLanes t.src lanes

/-- COMPLETION_TIMEOUT: the access is logged for one retry, or lost at its second timeout (R381); a request that a channel's
retraining holds is not timed out (R428). -/
def State.timeoutTx (s : State) (id : Nat) : State :=
  match s.txs.find? fun t => t.id == id with
  | none => s
  | some t => if 64 ≤ t.port then s else s.logTx t (if t.retried then .lost .memoryUnavailable s.tick else .port t.port true)

/-- A wait for a port. -/
def LogWait.onPort (p : Nat) : LogWait → Bool
  | .port q _ => q == p
  | _ => false

/-- A logged lane waits on a port. -/
def LogLane.onPort (p : Nat) (l : LogLane) : Bool := l.wait.onPort p

/-- LINK_DOWN: every access waiting on the port is logged. -/
def State.downPort (s : State) (p : Nat) : State :=
  let s := { s with ports := s.ports.put p { up := false } }
  let s := (s.txs.filter fun t => t.port == p).foldl (fun s t => s.logTx t (.port p t.retried)) s
  s.portRecord p

/-- LINK_UP: what waits on the port is tried again, group by group in the order in which it was logged. -/
def State.upPort (s : State) (p : Nat) : State :=
  let s := { s with ports := s.ports.put p {} }.resumeCopies (LogWait.onPort p)
  let s := s.groups.foldl (fun s g => if s.ctxLive g.2.ctx then s.replayGroup g.1 (LogLane.onPort p) else s) s
  s.portRecord p

/-- A channel has retrained: replays that wait for it go on (R428). -/
def State.upChannel (s : State) (p : Nat) : State :=
  s.groups.foldl (fun s g => if s.ctxLive g.2.ctx then s.replayGroup g.1 (LogLane.onPort p) else s) s

/-- A channel's retraining has failed: the requests it holds fail with MEMORY_UNAVAILABLE (R428). -/
def State.failChannel (s : State) (p : Nat) : State :=
  let s := (s.txs.filter fun t => t.port == p).foldl (fun s t => s.logTx t (.lost .memoryUnavailable s.tick)) s
  { s with groups := s.groups.mapAll fun _ g => g.loseLanes (LogLane.onPort p) .memoryUnavailable s.tick }

/-- LINK_LOST_TIMEOUT: a port still down turns what waits on it LOST. -/
def State.lostPort (s : State) (p : Nat) : State :=
  if s.portUp p then s
  else
    let s := s.resumeCopies (LogWait.onPort p)
    { s with ports := s.ports.put p { up := false, lost := true }
             groups := s.groups.mapAll fun _ g => g.loseLanes (LogLane.onPort p) .memoryUnavailable s.tick }

end Sys2Proof.Machine
end

