-- ==== Sys2Proof/Machine/Events.lean ====
section
/-! DEFINITION. Sys2Proof/Machine/Events.lean: the steps that the core, the slices, the Shore units, the firmware's page rings and
the ports take beside the groups: fills, deferred traps, timeouts, drains, engine turns, fragments, page requests and link
events. An event that is not due changes nothing (log 3). -/
namespace Sys2Proof.Machine

/-- A group of a context that runs. -/
def State.liveGroup (s : State) (gid : Nat) : Option Group :=
  (s.groups.find gid).filter fun g => s.ctxLive g.ctx

/-- A group of a context whose work under way still moves (R392). -/
def State.movingGroup (s : State) (gid : Nat) : Option Group :=
  (s.groups.find gid).filter fun g => s.ctxMoves g.ctx

/-! ### FILL (R62) -/

/-- A fill's values land and their destinations turn full. -/
def Group.applyFill (g : Group) (f : Fill) : Group :=
  let g := g.fillRegs (f.mem.getD g.accSeq) f.v
  let g := f.g.foldl (fun (g : Group) x => (g.setG x.1.toNat x.2).fullG x.1.toNat) g
  f.q.foldl (fun (g : Group) x => (g.setQ x.1.toNat x.2).fullQ x.1.toNat) g

/-- The bytes a far device has returned, lane by lane. -/
def Tx.got (t : Tx) (ext : List Byte) : List (Fin 128 × List Byte) :=
  t.lanes.zipIdx.map fun x => (x.1.1, (ext.drop (t.n * x.2)).take t.n)

/-- What a transaction brings back with the bytes given. -/
def Tx.values (t : Tx) (f : Fill) (ext : List Byte) : List (BitVec 7 × Mask × Lanes Word) :=
  if t.cxl then f.v else landFill t.src.instr (t.got ext)

/-- The transaction's answer holds too few bytes. -/
def Tx.short (t : Tx) (ext : List Byte) : Bool :=
  !t.cxl && !(landFill t.src.instr []).isEmpty && ext.length < t.n * t.lanes.length

/-- A request that brings a fill waits at its memory slice: for credits (R342), or for its channel's retraining (R428). -/
def State.fillHeld (s : State) (gid : Nat) (f : Fill) : Bool :=
  (f.mem.any fun acc => s.sliceWait.any fun r => r.who == some (gid, acc)) ||
    f.tx.any fun id => s.txs.any fun t => t.id == id && t.cxl && !s.portOpen t.port && 64 ≤ t.port

/-- Fill number idx of a group lands (R62); one whose request waits at its slice does not (R342, R428). -/
def State.landFillAt (s : State) (gid idx : Nat) (ext : List Byte) : State :=
  match s.movingGroup gid with
  | none => s
  | some g =>
    match g.fills[idx]? with
    | none => s
    | some f =>
      let rest : Group := { g with fills := g.fills.eraseIdx idx }
      if s.fillHeld gid f then s
      else
      match f.tx.bind fun id => s.txs.find? fun t => t.id == id with
      | none => s.putGroup gid (rest.applyFill f)
      | some t =>
        if t.short ext then s
        else { s with txs := s.txs.filter fun x => x.id != t.id }.putGroup gid (rest.applyFill { f with v := t.values f ext })

/-- FILL (R62). -/
def execFill (gid idx : Nat) (ext : List Byte) (s : State) : Result := .next (s.landFillAt gid idx ext)

/-! ### DEFERRED_TRAP (R382) -/

/-- The rank of a cause among the lanes of a deferred trap (R369). -/
def Cause.rank (c : Cause) : Nat :=
  match c with
  | .pageNotPresent => 0
  | .accessViolation => 1
  | _ => 2

/-- The lost lanes of an entry with their causes. -/
def LogEntry.lostLanes (e : LogEntry) : List (LogLane × Cause) :=
  e.lanes.filterMap fun l => match l.wait with
    | .lost c _ => some (l, c)
    | _ => none

/-- The lane and cause that decide. -/
def decideLost (ls : List (LogLane × Cause)) : Option (LogLane × Cause) :=
  ls.foldl (fun best x => match best with
    | none => some x
    | some b => if x.2.rank < b.2.rank then some x else some b) none

/-- The oldest LOST entry of an instruction that is not an engine's. -/
def Group.oldestLost (g : Group) : Option (Nat × LogEntry) :=
  (g.logOrder.filterMap fun i => (vecGet g.oplog i none).map fun e => (i, e)).find? fun x =>
    x.2.eng.isNone && !x.2.lostLanes.isEmpty

/-- Zero for the destinations of lanes that are lost (R382). -/
def zeroFill (i : Instr) (ls : List (Fin 128)) : List (BitVec 7 × Mask × Lanes Word) :=
  landFill i (ls.map fun l => (l, List.replicate 16 (0 : Byte)))

/-- The oldest LOST access that the handler itself has made: a trap that arises in the handler (R375; log 31). -/
def Group.handlerLost (g : Group) : Option (LogLane × Cause) :=
  if !g.inHandler then none
  else (g.logOrder.filterMap fun i => vecGet g.oplog i none).findSome? fun e =>
    if e.eng.isNone && g.trapAcc ≤ e.src.acc then decideLost e.lostLanes else none

/-- The group can take a deferred trap now: not in its handler, where it waits until ERET (log 31), nor in a final exit,
which reports the failure itself (R277). -/
def Group.canDefer (g : Group) : Bool := !g.inHandler && !g.finalExit

/-- Take the deferred trap of a group's oldest LOST entry (R382). -/
def State.deferTrap (s : State) (gid : Nat) : State :=
  match s.liveGroup gid with
  | none => s
  | some g =>
    if let some (_, c) := g.handlerLost then s.killContext g.ctx 1 c.code 0
    else match g.oldestLost with
    | none => s
    | some (i, e) =>
      match decideLost e.lostLanes with
      | none => s
      | some (l, c) =>
        if !g.canDefer then s
        else
          let lanes := e.lostLanes.map fun x => x.1.lane
          let taken : LogEntry := { e with lanes := e.lanes.map fun x => match x.wait with
            | .lost _ _ => { x with wait := .taken }
            | _ => x }
          let g := g.fillRegs e.src.acc (zeroFill e.src.instr lanes)
          let g := { g with oplog := vecMod g.oplog i fun _ => some taken }
          (s.putGroup gid g).takeDeferred gid i (maskOfList lanes) e.src.pc c l.addr l.lane.val

/-- DEFERRED_TRAP (R382). -/
def execDeferredTrap (gid : Nat) (s : State) : Result := .next (s.deferTrap gid)

/-! ### Timeouts (R72, R145, R199, R219, R251, R309, R383) -/

/-- The wait of a live entry has lasted its limit. -/
def State.expired (s : State) (gid ei : Nat) : Option (Group × Entry × Wait) :=
  match s.liveGroup gid with
  | none => none
  | some g => match g.entries[ei]? with
    | none => none
    | some e => match e.wait with
      | none => none
      | some w => if w.limit ≤ s.cycle - w.start then some (g, e, w) else none

/-- A trap that captures no barrier (R383). -/
def State.plainTimeout (s : State) (gid ei : Nat) (t : TrapInfo) : State :=
  (s.takeTrap gid ei t).updGroup gid fun g => { g with tbarae := 0, tbartx := 0 }

/-- Saved entries that wait at BARWAIT on a barrier, by index; entry 0 is the trapping one. -/
def Group.waitingOn (g : Group) (h : DWord) : List Nat :=
  (List.range g.saved.length).filter fun i => i == 0 || match g.saved[i]? with
    | none => false
    | some e => match e.wait with
      | none => false
      | some w => match w.instr with
        | .barwait _ _ _ => w.x == h
        | _ => false

/-- The barrier captured at a timeout (R371, R383). -/
def Group.capture (g : Group) (h : DWord) (b : Barrier) : Group :=
  let on := g.waitingOn h
  { g with
    tbarae := .ofNat 32 (b.a * 65536 + b.e)
    tbartx := b.done ++ BitVec.ofInt 32 b.tx
    tbarw := on
    tinfo := g.tinfo ||| .ofNat 32 (65536 * on.length) }

/-- BARRIER_TIMEOUT of an entry at BARWAIT (R219, R383). -/
def State.barrierExpires (s : State) (gid ei : Nat) : State :=
  match s.expired gid ei with
  | none => s
  | some (g, _, w) =>
    match w.instr, s.barrierOf g w.x with
    | .barwait _ _ _, some (_, _, b) =>
      if b.passed (w.y.truncate 32) then s
      else (s.takeTrap gid ei { cause := .barrierTimeout, addr := w.x }).updGroup gid fun g => g.capture w.x b
    | _, _ => s

/-- BARRIER_TIMEOUT (R219). -/
def execBarrierTimeout (gid ent : Nat) (s : State) : Result := .next (s.barrierExpires gid ent)

/-- TAG_TIMEOUT of an entry at LDF or STE (R199). -/
def State.tagExpires (s : State) (gid ei : Nat) : State :=
  match s.expired gid ei with
  | none => s
  | some (_, e, w) =>
    match w.left with
    | [] => s
    | p :: _ =>
      if w.phase = 7 then
        (s.undoTag gid e.mask w).plainTimeout gid ei { cause := .tagTimeout, addr := p.2.2.2, lane := p.1 }
      else s

/-- TAG_TIMEOUT (R199). -/
def execTagTimeout (gid ent : Nat) (s : State) : Result := .next (s.tagExpires gid ent)

/-- An RTSYNC wait expires (R251). -/
def State.rtsyncExpires (s : State) (gid ei : Nat) : State :=
  match s.expired gid ei with
  | none => s
  | some (g, _, w) =>
    let t := s.streams.at (w.x.toNat % 65536) {}
    match w.instr with
    | .rtsync _ _ _ =>
      if t.live && t.ctx == g.ctx && t.gen == bits w.x.toNat 63 48 then
        s.plainTimeout gid ei { cause := .barrierTimeout, addr := t.f.zeroExtend 64 }
      else s
    | _ => s

/-- RTSYNC_TIMEOUT (R251). -/
def execRtsyncTimeout (gid ent : Nat) (s : State) : Result := .next (s.rtsyncExpires gid ent)

/-- A VCLAIM wait expires, the pool unchanged (R309). -/
def State.vclaimExpires (s : State) (gid ei : Nat) : State :=
  match s.expired gid ei with
  | none => s
  | some (g, _, w) =>
    match w.instr with
    | .vclaim _ _ =>
      (s.updCrew g.crew fun c => { c with claims := c.claims.filter fun x => x != (gid, w.seq) }).plainTimeout gid ei
        { cause := .barrierTimeout, addr := w.x }
    | _ => s

/-- VCLAIM_TIMEOUT (R309). -/
def execVclaimTimeout (gid ent : Nat) (s : State) : Result := .next (s.vclaimExpires gid ent)

/-- A link wait expires: the operation ends with status 2 (R145). -/
def State.linkExpires (s : State) (gid seq : Nat) : State :=
  match s.liveGroup gid with
  | none => s
  | some g => match g.turnOp with
    | none => s
    | some o => if o.seq == seq && s.linkExpired g o then s.linkEnd gid (s.crew g.crew) o else s

/-- LINK_TIMEOUT (R145). -/
def execLinkTimeout (gid seq : Nat) (s : State) : Result := .next (s.linkExpires gid seq)

/-! ### Starvation and yield marks (R266, R279) -/

/-- The entry's count has reached 1,024 and it is not due yet. -/
def Entry.starved (e : Entry) : Bool := 1024 ≤ e.starve && !e.due

/-- ENTRY_DUE (R266). -/
def execEntryDue (gid ent : Nat) (s : State) : Result :=
  .next (if (s.liveGroup gid).isNone then s else s.updEntry gid ent fun e => if e.starved then { e with due := true } else e)

/-- The entry's mark has stood 64 cycles. -/
def State.yieldOver (s : State) (e : Entry) : Bool := e.yield && 64 ≤ s.cycle - e.yieldAt

/-- YIELD_MARK_CLEAR (R279). -/
def execYieldMarkClear (gid ent : Nat) (s : State) : Result :=
  .next (if (s.liveGroup gid).isNone then s
    else s.updEntry gid ent fun e => if s.yieldOver e then { e with yield := false } else e)

/-! ### The store FIFO drains (R192, R201, R206, R217, R221, R234, R295, R320, R327) -/

/-- The FIFO entry that drains next, and the FIFO without it; a place that an entry waits at is no entry to drain. -/
def Group.drainHead (g : Group) : Option (FifoOp × List FifoOp) :=
  match g.headPlace with
  | none => none
  | some i => match g.fifo[i]? with
    | some (.mark _) | some (.ste _ _) | none => none
    | some o => some (o, g.fifo.eraseIdx i)

/-- A far load of the group issued before a number is still out (R173). -/
def Group.farBefore (g : Group) (acc : Nat) : Bool := g.fills.any fun f => f.tx.isSome && f.mem.any (· < acc)

/-- The release of an arrival at a scope holds (R170, R217). -/
def State.arriveReady (s : State) (g : Group) (scope : Nat) : Bool := g.logOrder.isEmpty && !s.farOut g scope

/-- A FIFO entry that waits for a page stands at the head again. -/
def State.keepLate (s : State) (gid : Nat) (w : Wait) (h : Held) : State :=
  s.updGroup gid fun g => { g with fifo := .late w (some h) :: g.fifo }

/-- What is left of an instruction whose entry GEXIT has ended; none while it must wait (R278). A trap it would raise has no
entry to be taken at, and is lost (log 48). -/
def State.performLate (s : State) (gid : Nat) (g : Group) (w : Wait) : Option State :=
  match w.instr, tlbiKind w.instr with
  | .tspawn _ _, _ =>
    if !g.logsAfter w.seq then none
    else match s.spawn g.ctx w.x g.priv (halfCluster g.core) w.kept with
    | .ok s => some s
    | .bad _ _ s => some s
    | .held h r s => some (s.keepLate gid { w with data := if r.isEmpty then [] else keepBytes r } h)
    | .full t s =>
      some { s with pending := s.pending ++
        [({ ctx := g.ctx, kind := .place t (halfCluster g.core) none, lev := g.priv } : Pending)] }
  | .bowchk _ _ _ _, _ =>
    if !g.logsAfter w.seq then none
    else if (s.sets.at (setKey g.ctx (w.x.toNat % 65536)) {}).opened then some s
    else match State.readTable g (w.kept32 0) w.bowTable [] s with
    | .bad _ s => some s
    | .held h _ s => some (s.keepLate gid w h)
    | .ok raw s => s.lateBowchk gid g w raw
  | .fseal _ _ _, _ => if g.posts.any fun p => p.id < w.seq then none else s.acceptSeal g.ctx w.x (w.y.truncate 24)
  | .rtclose _ _ _, _ =>
    let i := w.x.toNat % 65536
    let t := s.streams.at i {}
    if !s.runsDone i || !g.logsAfter w.seq then none
    else if w.phase = 1 && !t.close.isEmpty then
      some ((s.addCloseRuns i t).updGroup gid fun g => { g with fifo := .late { w with phase := 2 } none :: g.fifo })
    else some (s.freeTarget i t)
  | _, some kind =>
    if !g.logsAfter w.seq || !s.vfQuiet (tlbiVf g w.x) then none
    else some (s.dropTlb kind (tlbiVf g w.x) (w.x.truncate 16) w.y)
  | _, none => some s

/-- A place lies in a channel that retrains, whose slices hold the request (R428). -/
def State.placeRetrains (s : State) (l : Loc) : Bool :=
  match l with
  | .phys pa => s.retrains pa
  | _ => false

/-- Perform a FIFO entry; none while it must wait. -/
def State.performFifo (s : State) (gid : Nat) (g : Group) : FifoOp → Option State
  | .store src ps =>
    if g.farBefore src.acc || ps.any (fun p => s.placeRetrains p.loc) then none else some (s.performStore gid src ps)
  | .atom src o lanes _ =>
    if g.farBefore src.acc || lanes.any (fun x => s.placeRetrains x.loc) then none
    else some (s.performAtom gid src o.toNat lanes false)
  | .copy id => some (s.updCore g.core fun c => { c with copies := KeyMap.upd c.copies id fun k => { k with ready := true } })
  | .eng seq => some (s.updOp gid seq fun o => { o with drained := true })
  | .arrive h tx relaxed =>
    let scope := ((s.barrierOf g h).map fun b => b.2.2.scope.toNat).getD 0
    if relaxed || s.arriveReady g scope then some (s.arrive g h tx) else none
  | .nred d o x =>
    match s.slotKey g.ctx d with
    | some key => if s.slotTakes key g.ctx then some (s.contribute g.ctx d o x) else none
    | none => some s
  | .fseal h psn _ => s.acceptSeal g.ctx h psn
  | .qpush h cls x qf => if g.logOrder.isEmpty then some (s.performPush gid g h cls x qf) else none
  | .bowset src set _ bow ps =>
    if ps.any fun p => s.placeRetrains p.loc then none else some (s.performBowset gid g src set bow ps)
  | .bowidle set r idle => some (s.setIdle g.ctx set r idle)
  | .stf src ps => if g.logsAfter src.acc then some (s.performStf ps) else none
  | .late w none => s.performLate gid g w
  | .late _ (some _) | .mark _ | .ste _ _ => none

/-- The head of a group's FIFO is performed where a test allows its kind; none when nothing drains. -/
def State.drain (s : State) (gid : Nat) (kind : FifoOp → Bool) : Option State :=
  match s.movingGroup gid with
  | none => none
  | some g =>
    match g.drainHead with
    | none => none
    | some (o, rest) => if kind o then (s.updGroup gid fun g => { g with fifo := rest }).performFifo gid g o else none

/-- The entry is an arrival. -/
def FifoOp.isArrive : FifoOp → Bool
  | .arrive _ _ _ => true
  | _ => false
/-- The entry is a seal. -/
def FifoOp.isSeal : FifoOp → Bool
  | .fseal _ _ _ => true
  | _ => false
/-- The entry is a contribution. -/
def FifoOp.isNred : FifoOp → Bool
  | .nred _ _ _ => true
  | _ => false

/-- STORE_DRAIN (R192). -/
def execStoreDrain (gid : Nat) (s : State) : Result := .next ((s.drain gid fun _ => true).getD s)
/-- BARRIER_ARRIVAL (R217). -/
def execBarrierArrival (gid : Nat) (s : State) : Result := .next ((s.drain gid FifoOp.isArrive).getD s)
/-- FSEAL_ACCEPT (R234). -/
def execFsealAccept (gid : Nat) (s : State) : Result := .next ((s.drain gid FifoOp.isSeal).getD s)
/-- NRED_CONTRIBUTION (R221). -/
def execNredContribution (gid : Nat) (s : State) : Result := .next ((s.drain gid FifoOp.isNred).getD s)

/-! ### Copies and engines (R145 to R149, R155, R206) -/

/-- COPY_PERFORMED of the idx-th copy of a core (R206). -/
def execCopyPerformed (core idx : Nat) (s : State) : Result :=
  match (s.core core).copies[idx]? with
  | none => .next s
  | some (id, c) => .next (if c.due && (s.movingGroup c.gid).isSome then s.performCopy core id else s)

/-- LEAVE_GRANT (R148). -/
def execLeaveGrant (cluster : Nat) (s : State) : Result := .next (s.grantLeave cluster)

/-- ENGINE_TILE_TURN (R149). -/
def execEngineTileTurn (gid : Nat) (s : State) : Result :=
  .next (if (s.liveGroup gid).isSome then s.engineTurn gid else s)

/-- ENGINE_COMPLETE (R155). -/
def execEngineComplete (gid : Nat) (s : State) : Result :=
  .next (if (s.liveGroup gid).isSome then s.engineEnd gid else s)

/-! ### Draw streams (R234 to R238) -/

/-- A stream's context runs, or its save waits for its fragments. -/
def State.liveStream (s : State) (i : Nat) : Bool := (s.streams.find i).any fun t => t.live && s.ctxMoves t.ctx

/-- FRONTIER_VIEW (R234). -/
def execFrontierView (stream unit : Nat) (s : State) : Result :=
  .next (if s.liveStream stream then s.viewFrontier stream unit else s)

/-- FRAGMENT_ARRIVAL (R235). -/
def execFragmentArrival (stream idx : Nat) (s : State) : Result :=
  .next (if s.liveStream stream then s.arriveFrag stream idx else s)

/-! ### Page rings (R358, R359) -/

/-- PAGE_REQUEST (R358). -/
def execPageRequest (vf : Nat) (s : State) : Result := .next (s.writeRequest vf)

/-- REPLY_DOORBELL (R359). -/
def execReplyDoorbell (vf : Nat) (s : State) : Result := .next (State.readReplies vf (s.vf vf).rpqlen s)

/-! ### Ports and the fabric (R361, R362, R381, R404, R411) -/

/-- COMPLETION_TIMEOUT (R381). -/
def execCompletionTimeout (id : Nat) (s : State) : Result := .next (s.timeoutTx id)
/-- LINK_DOWN (R381). -/
def execLinkDown (port : Nat) (s : State) : Result := .next (s.downPort port)
/-- LINK_UP (R381). -/
def execLinkUp (port : Nat) (s : State) : Result := .next (s.upPort port)
/-- LINK_LOST_TIMEOUT (R381). -/
def execLinkLostTimeout (port : Nat) (s : State) : Result := .next (s.lostPort port)

/-- REMOTE_REFUSAL: the access fails as after a FAULT reply (R361). -/
def execRemoteRefusal (id : Nat) (s : State) : Result :=
  match s.txs.find? fun t => t.id == id with
  | none => .next s
  | some t => .next (s.logTx t (.lost .accessViolation s.tick))

/-- FABRIC_BUSY: the sender only restarts its completion timeout, which the model does not count (R404; log 2). -/
def execFabricBusy (_ : Nat) (s : State) : Result := .next s

/-- REDIRECT: the accesses held on a window whose page has moved, and a record for the hypervisor (R411). -/
def execRedirect (vf window endpt : Nat) (s : State) : Result :=
  let s := (s.txs.filter fun t => t.vf == vf && t.window == window && !t.cxl).foldl (fun s t => s.logTx t (.window window)) s
  .next (s.postErr { addr := .ofNat 64 window, info := .ofNat 64 endpt, kind := 0x10, vf })

/-- INBOUND_FABRIC_REQUEST: a frozen device answers BUSY; an unlisted sender is refused (R362, R404). -/
def execInboundFabricRequest (endpt srcVf vf kind : Nat) (addr : DWord) (data : List Byte) (s : State) : Result :=
  if s.frozen then .next (s.send (.busy endpt))
  else if !((s.vf vf).peers.contains (endpt, srcVf)) then .next (s.send (.reply endpt false []))
  else .next (s.serveInbound { endpt, srcVf, vf, kind, addr, data, held := ⟨vf, 0, 0⟩ })

end Sys2Proof.Machine
end

