-- ==== Sys2Proof/Machine/Host.lean ====
section
/-! DEFINITION. Sys2Proof/Machine/Host.lean: the commands of the hypervisor and of the tenants' drivers that configure virtual
functions, contexts, regions, rings and windows, and attestation (R21, R335 to R345, R348, R349, R360, R362, R363, R426, R433).
A refused command changes nothing and is answered so; before the host interface is open (R432) none is carried out. -/
namespace Sys2Proof.Machine

/-- The host interface is open and the device not frozen (R403, R432). -/
def State.hostOpen (s : State) : Bool := (vecGet s.dies 0 {}).mboot == 7 && !s.frozen

/-- A host command: carried out while the interface is open, and refused where its test is none. -/
def hostCommand (s : State) (f : Option State) : Result := if !s.hostOpen then .next s else match f with
  | some t => .next t
  | none => refuse s

/-- Write a virtual function's block. -/
def State.putVf (s : State) (n : Nat) (v : VF) : State := { s with vfs := s.vfs.put n v }

/-- A virtual function exists while it owns a slice (R335). -/
def VF.exists_ (v : VF) : Bool := v.slices != 0

/-- Virtual functions that exist. -/
def State.tenants (s : State) : List (Nat × VF) := s.vfs.filter fun v => v.2.exists_

/-- A power of two from 2^lo to 2^hi. -/
def powerOf (lo hi n : Nat) : Bool := (List.range (hi + 1)).any fun k => lo ≤ k && n == 2 ^ k

/-! ### SLICES (R21, R335, R337) -/

/-- Clusters of a SLICES word. -/
def slicesList (w : Word) : List Nat := (List.range 32).filter fun c => w.getLsbD c

/-- The virtual function has no resident crew, no queued launch or task, and no access in flight (R337). -/
def State.vfIdle (s : State) (vf : Nat) : Bool :=
  (s.crews.all fun c => ctxVf c.2.ctx != vf || (s.ctx c.2.ctx).state == .saved) && (s.vf vf).order.isEmpty &&
    (s.vf vf).acceptHeld.isEmpty && (s.launchQueues vf).isEmpty && (s.launches.all fun l => ctxVf l.2.ctx != vf) &&
    (s.cores.all fun c => (c.2.tasks.all fun t => ctxVf t.ctx != vf) && c.2.copyTasks.all fun t => ctxVf t.ctx != vf) &&
    (s.txs.all fun t => t.vf != vf) && (s.pending.all fun p => ctxVf p.ctx != vf) && (s.inbound.all fun r => r.vf != vf) &&
    (s.shoreQ ++ s.shoreHeld).all fun r => ctxVf (s.streams.at r.stream {}).ctx != vf

/-- Nothing of the virtual function stands in the clusters it gives up: no open stream, whose targets lie on every slice of
the partition, no armed set, pending reduction or queue element, and no saved context with a crew there (R337; log 34). -/
def State.slicesFree (s : State) (vf : Nat) (lost : List Nat) : Bool :=
  (s.streams.all fun t => !t.2.live || ctxVf t.2.ctx != vf) &&
    (s.sets.all fun t => !t.2.checked || ctxVf t.2.ctx != vf || !lost.contains (t.2.home / 2)) &&
    (s.slots.all fun t => !lost.contains (t.1 / 128)) &&
    (s.queues.all fun q => !q.2.live || ctxVf q.2.ctx != vf || q.2.elems.isEmpty) &&
    s.crews.all fun c => !lost.contains (c.2.core / 8)

/-- The budgets of a die's memory slices (R343). -/
def State.dieBudget (s : State) (die : Nat) : Nat :=
  (List.range 8).foldl (fun n k =>
    let c := 8 * die + k
    match s.vfs.find? fun v => v.2.slices.getLsbD c with
    | some v => n + 2 * vecGet v.2.budgetNext c 0
    | none => n) 0

/-- Every die keeps R343's limit. -/
def State.budgetsOk (s : State) : Bool := (List.range 4).all fun d => s.dieBudget d ≤ 460800

/-- The sum of CTXMAX over the tenants. -/
def State.ctxTotal (s : State) : Nat := s.tenants.foldl (fun n v => n + v.2.ctxmax) 0

/-- A cluster's own stores become zero and its tags full; the governor keeps its share of POWERCAP (R337, R431). -/
def State.wipeClusters (s : State) (cs : List Nat) : State :=
  { s with cores := s.cores.keep fun k _ => !cs.contains (k / 8)
           clusters := s.clusters.mapAll fun k c => if cs.contains k then { budget := c.budget } else c }

/-- Regions return to the hypervisor (R335). -/
def State.giveBack (s : State) (rs : List Nat) : State :=
  { s with fwRegions := rs.foldl (fun l r => insertNat r l) s.fwRegions }

/-- A destroyed virtual function's regions, rings and windows return to the hypervisor (R335). -/
def VF.bare (v : VF) : VF :=
  { v with slices := 0, s2root := 0, prq := { len := 64 }, rpqbase := 0, rpqlen := 64, rpqpos := 0, regions := []
           saveRegions := [], windows := [], requests := [] }

/-- SET_SLICES' tests, and its effect. -/
def State.setSlices (s : State) (vf : Nat) (w : Word) : Option State :=
  let v := s.vf vf
  let changed := slicesList (v.slices ^^^ w)
  let lost := slicesList (v.slices &&& ~~~ w)
  let taken := s.vfs.any fun o => o.1 != vf && (o.2.slices &&& w) != 0
  if 32 ≤ vf || taken || (slicesList w).any s.hidden.contains then none
  else if w == 0 && s.contexts.any fun c => ctxVf c.1 == vf then none
  else if !changed.isEmpty && !s.vfIdle vf then none
  else if !lost.isEmpty && !s.slicesFree vf lost then none
  else
    let born := !v.exists_ && w != 0
    let next : VF := if w == 0 then v.bare else { v with slices := w, moves := if born then 0 else v.moves }
    let s := (s.putVf vf next).wipeClusters changed
    let s := if w == 0 then (s.dropVfTlb vf).giveBack (v.regions ++ v.saveRegions) else s
    if 4096 < s.ctxTotal || !s.budgetsOk then none
    else some { s with clkStep :=
      if born then (if s.tenants.length == 1 then bits v.hpol.toNat 15 8 else 0)
      else if s.tenants.isEmpty then 0 else s.clkStep }

/-- SET_SLICES (R335, R337). -/
def execSetSlices (vf : Nat) (slices : Word) (s : State) : Result :=
  hostCommand s ((s.setSlices vf slices).map fun s => s.answer true)

/-! ### HPOL, CTXMAX, BUDGET (R335, R339, R340, R343) -/

/-- The virtual function has no resident crew and no queued launch (R339). -/
def State.noLaunches (s : State) (vf : Nat) : Bool :=
  (s.crews.all fun c => ctxVf c.2.ctx != vf) && (s.vf vf).order.isEmpty && (s.vf vf).acceptHeld.isEmpty &&
    s.queues.all fun q => !q.2.live || !q.2.launch || ctxVf q.2.ctx != vf || q.2.elems.isEmpty

/-- SET_HPOL's tests, and its effect. -/
def State.setHpol (s : State) (vf : Nat) (h : DWord) : Option State :=
  let v := s.vf vf
  let clears := (v.hpol &&& ~~~ h) &&& 3 != 0
  if 32 ≤ vf || bits h.toNat 63 16 != 0 || bits h.toNat 7 2 != 0 || 12 < bits h.toNat 15 8 then none
  else if clears && !s.noLaunches vf then none
  else
    let s := s.putVf vf { v with hpol := h }
    some (if v.exists_ && s.tenants.length == 1 then { s with clkStep := bits h.toNat 15 8 } else s)

/-- SET_HPOL (R339, R340). -/
def execSetHpol (vf : Nat) (hpol : DWord) (s : State) : Result :=
  hostCommand s ((s.setHpol vf hpol).map fun s => s.answer true)

/-- SET_CTXMAX (R335). -/
def execSetCtxmax (vf n : Nat) (s : State) : Result :=
  let t := s.putVf vf { s.vf vf with ctxmax := n }
  hostCommand s (if 32 ≤ vf || n = 0 || 4096 < n || 4096 < t.ctxTotal then none else some (t.answer true))

/-- SET_BUDGET (R343): it counts from the next window on. -/
def execSetBudget (vf cluster n : Nat) (s : State) : Result :=
  let t := s.putVf vf { s.vf vf with budgetNext := vecMod (s.vf vf).budgetNext cluster fun _ => n }
  hostCommand s (if 32 ≤ vf || 32 ≤ cluster || n = 0 || 65535 < n || !t.budgetsOk then none else some (t.answer true))

/-! ### Contexts (R338) -/

/-- The checks of a context record in offset order. -/
def contextChecks (r : List Byte) : List (Nat × Bool) :=
  [(0x00, field r 0 8 % 65536 == 0 && field r 0 8 < 2 ^ 55), (0x0A, field r 0x0A 2 == 0),
    (0x0C, field r 0x0C 2 == 0 || 256 ≤ field r 0x0C 2), (0x10, field r 0x10 8 % 8 == 0), (0x18, field r 0x18 8 % 32 == 0),
    (0x20, field r 0x20 4 ≤ 65536), (0x24, field r 0x24 4 == 0), (0x28, field r 0x28 8 % 65536 == 0),
    (0x30, field r 0x30 8 % 65536 == 0 && 2 ^ 20 ≤ field r 0x30 8), (0x38, field r 0x38 8 % 4096 == 0),
    (0x40, powerOf 6 16 (field r 0x40 4)), (0x44, field r 0x44 4 == 0),
    (0x48, field r 0x48 8 % 65536 == 0 && field r 0x48 8 < 2 ^ 55), (0x50, field r 0x50 168 == 0)]

/-- The context a record describes. -/
def contextOf (r : List Byte) : Context :=
  { s1root := .ofNat 64 (field r 0 8), asid := .ofNat 16 (field r 8 2)
    age := if field r 0x0C 2 = 0 then 4096 else field r 0x0C 2, sq := field r 0x0E 2, lctab := .ofNat 64 (field r 0x10 8)
    rstab := .ofNat 64 (field r 0x18 8), rslen := field r 0x20 4, taskarea := .ofNat 64 (field r 0x28 8)
    tasksize := field r 0x30 8, events := { base := .ofNat 64 (field r 0x38 8), len := field r 0x40 4 }
    save := .ofNat 64 (field r 0x48 8) }

/-- Contexts a virtual function holds. -/
def State.ctxCount (s : State) (vf : Nat) : Nat := (s.contexts.filter fun c => ctxVf c.1 == vf).length

/-- STATUS of a context record, and the index of the context made live (R338). -/
def State.judgeContext (s : State) (vf : Nat) (r : List Byte) : Nat × Option Nat :=
  match firstBad (contextChecks r) with
  | some o => (0x80 + 256 * o, none)
  | none =>
    if (s.vf vf).ctxmax ≤ s.ctxCount vf || 4096 ≤ s.contexts.length then (0x81, none)
    else if s.contexts.any fun c => ctxVf c.1 == vf && c.2.asid == (contextOf r).asid then (0x82, none)
    else (1, (List.range 4096).find? fun i => (s.contexts.find (ctxKey vf i)).isNone)

/-- Why a context record cannot be read or answered in memory: the cause (R338). -/
def State.recordCause (s : State) (vf : Nat) (rec_ : DWord) : Except Cause Nat :=
  if rec_.toNat % 256 != 0 then .error .misaligned
  else if bits rec_.toNat 63 55 != 0 then .error .accessViolation
  else match s.stage2 vf rec_.toNat with
  | .miss _ 0 => .error .pageNotPresent
  | .miss _ _ => .error .accessViolation
  | .lost c _ => .error c
  | .ok pa e _ =>
    if !bit e 2 || !bit e 3 then .error .accessViolation
    else match (List.range 4).findSome? fun i => s.lineFault (pa + 64 * i) with
    | some c => .error c
    | none => .ok pa

/-- CREATE_CONTEXT (R338): answered with the context's index, its refused STATUS, or the cause. -/
def execCreateContext (vf : Nat) (rec : DWord) (s : State) : Result :=
  if !s.hostOpen then .next s
  else if !(s.vf vf).exists_ then refuse s
  else match s.recordCause vf rec with
  | .error c => .next (s.answer false (.ofNat 64 c.code))
  | .ok pa =>
    let r := s.mem.bytes pa 256
    let (st, idx) := s.judgeContext vf r
    let s := { s with mem := s.mem.writeN (pa + 0xF8) 8 st }
    match idx with
    | some i => .next ({ s with contexts := s.contexts.put (ctxKey vf i) (contextOf r) }.answer true (.ofNat 64 i))
    | none => .next (s.answer false (.ofNat 64 st))

/-! ### Attestation (R345) -/

/-- The part of a report that is signed. -/
def State.reportBody (s : State) (vf : Nat) (nonce : List Byte) : List Byte :=
  let v := s.vf vf
  let budgets := (List.range 32).flatMap fun c => leBytes 2 (if v.slices.getLsbD c then vecGet v.budget c 0 else 0)
  leBytes 4 1 ++ leBytes 1 vf ++ leBytes 3 0 ++ nonce ++ (Config.sha384 (Config.imageBytes s.image.content)).toList ++
    Config.deviceId.toList ++ leBytes 4 v.slices.toNat ++ leBytes 4 0 ++ leBytes 8 v.hpol.toNat ++
    (Config.sha384 budgets).toList

/-- ATTESTATION_REPORT (R345). -/
def execAttestationReport (vf : Nat) (nonce : List Byte) (s : State) : Result :=
  let b := s.reportBody vf nonce
  hostCommand s (if nonce.length != 48 || !(s.vf vf).exists_ then none
    else some (s.send (.report (b ++ (Config.signRsa b).toList ++ (Config.signSlh b).toList))))

/-! ### Regions, roots and rings (R348, R349, R426) -/

/-- A region of HBM4, or behind a CXL port, up to the size its expander reports (R348). -/
def regionExists (r : Nat) : Bool :=
  r < 768 || (2 ^ 14 ≤ r && r < 13 * 2 ^ 14 && r % 2 ^ 14 + Config.cxlMissing (r / 2 ^ 14 - 1) < 2 ^ 14)

/-- The die whose stacks or whose port hold a region (R15, R348). -/
def regionDie (r : Nat) : Nat := if r < 2 ^ 14 then r / 192 else (r / 2 ^ 14 - 1) / 3

/-- A root or a ring of a virtual function, or the hypervisor's queue, lies in a region (R348, R349, R426). -/
def State.ringIn (s : State) (r : Nat) : Bool :=
  let hit (base : DWord) (n : Nat) : Bool := base != 0 && base.toNat / 2 ^ 30 ≤ r && r ≤ (base.toNat + n - 1) / 2 ^ 30
  (s.vfs.any fun v => hit v.2.s2root 65536 || hit v.2.prq.base (32 * v.2.prq.len) || hit v.2.rpqbase (16 * v.2.rpqlen)) ||
    hit s.evq.base (64 * s.evq.len)

/-- Places of a stage-2 table that memory lists. -/
def tablePlaces (m : Memory) (base : Nat) : List Nat :=
  ((m.filter fun c => base ≤ c.1 && c.1 < base + 65536).map fun c => (c.1 - base) / 8).eraseDups

/-- A stage-2 table, or one below it, maps into a region; while OWN is not 0 an entry holds a tag and maps
nothing (R352, R407). -/
def mapsInto (m : Memory) (region : Nat) : List Nat → Nat → Bool
  | [], _ => false
  | sh :: rest, base => (tablePlaces m base).any fun i =>
    let e := Memory.readN m (base + 8 * i) 8
    match bits e 1 0 with
    | 0 => false
    | 2 => mapsInto m region rest (entOA e)
    | _ => bits e 7 6 == 0 && entOA e / 2 ^ 30 ≤ region && region * 2 ^ 30 < entOA e + 2 ^ sh

/-- Remove a region from every owner. -/
def State.freeRegion (s : State) (r : Nat) : State :=
  { s with vfs := s.vfs.mapAll fun _ v => { v with regions := v.regions.filter (· != r), saveRegions := v.saveRegions.filter (· != r) }
           fwRegions := s.fwRegions.filter (· != r) }

/-- ASSIGN_REGION (R348, R396): to a virtual function, to the firmware and hypervisor, or as a save region. -/
def execAssignRegion (region : Nat) (owner : Option Nat) (save : Bool) (s : State) : Result :=
  let mapped := s.vfs.any fun v => some v.1 != owner && mapsInto s.mem region [42, 29, 16] v.2.s2root.toNat
  let bad := !regionExists region || mapped || owner.any (32 ≤ ·) || (save && owner.isNone) ||
    (owner.isSome && s.ringIn region) || (owner.isSome && (vecGet s.dies (regionDie region) {}).failed)
  let t := s.freeRegion region
  hostCommand s (if bad then none
    else match owner with
    | none => some ({ t with fwRegions := insertNat region t.fwRegions }.answer true)
    | some n =>
      let v := t.vf n
      some ((t.putVf n (if save then { v with saveRegions := insertNat region v.saveRegions }
        else { v with regions := insertNat region v.regions })).answer true))

/-- An aligned range of n bytes lies in firmware regions. -/
def State.inFirmware (s : State) (base n align : Nat) : Bool :=
  base % align == 0 && s.fwRegions.contains (base / 2 ^ 30) && s.fwRegions.contains ((base + n - 1) / 2 ^ 30)

/-- SET_S2ROOT (R349). -/
def execSetS2root (vf : Nat) (root : DWord) (s : State) : Result :=
  hostCommand s (if 32 ≤ vf || !s.inFirmware root.toNat 65536 65536 then none
    else some ((s.putVf vf { s.vf vf with s2root := root }).answer true))

/-- SET_PAGE_REQUEST_RING (R349). -/
def execSetPageRequestRing (vf : Nat) (base : DWord) (len : Nat) (s : State) : Result :=
  hostCommand s (if 32 ≤ vf || !powerOf 6 16 len || !s.inFirmware base.toNat (32 * len) 4096 then none
    else some ((s.putVf vf { s.vf vf with prq := { (s.vf vf).prq with base, len, pos := 0 } }).answer true))

/-- SET_REPLY_RING (R349). -/
def execSetReplyRing (vf : Nat) (base : DWord) (len : Nat) (s : State) : Result :=
  hostCommand s (if 32 ≤ vf || !powerOf 6 16 len || !s.inFirmware base.toNat (16 * len) 4096 then none
    else some ((s.putVf vf { s.vf vf with rpqbase := base, rpqlen := len, rpqpos := 0 }).answer true))

/-- SET_PEERS (R349, R362). -/
def execSetPeers (vf : Nat) (peers : List (Nat × Nat)) (s : State) : Result :=
  hostCommand s (if 32 ≤ vf || 64 < peers.length then none
    else some ((s.putVf vf { s.vf vf with peers }).answer true))

/-- SET_EVENT_QUEUE (R426). -/
def execSetEventQueue (base : DWord) (len : Nat) (s : State) : Result :=
  hostCommand s (if !powerOf 8 16 len || !s.inFirmware base.toNat (64 * len) 4096 then none
    else some ((State.flushErr 1025 { s with evq := { s.evq with base, len, pos := 0 } }).answer true))

/-! ### Fabric windows (R360, R411) -/

/-- A window's fields are in order. -/
def windowOk (w : Window) (rvf asid limit : Nat) : Bool :=
  w.rbase.toNat % 65536 == 0 && limit % 65536 == 0 && limit ≤ 2 ^ 47 && w.endpt < 2 ^ 48 && rvf < 32 && asid < 65536 &&
    !w.flags.getLsbD 6 && !w.flags.getLsbD 7 && !(w.flags.getLsbD 4 && w.flags.getLsbD 1)

/-- A logged lane waits on a window. -/
def LogLane.onWindow (w : Nat) (l : LogLane) : Bool := l.wait == .window w

/-- The accesses held on a window are retried; those of a saved context wait for its restore (R392, R411). -/
def State.retryWindow (s : State) (vf w : Nat) : State :=
  s.groups.foldl (fun s x =>
    if ctxVf x.2.ctx != vf then s
    else if s.ctxLive x.2.ctx then s.replayGroup x.1 (LogLane.onWindow w)
    else s.updGroup x.1 fun g => { g with oplog := g.oplog.map fun o => o.map fun e =>
      { e with lanes := e.lanes.map fun l => if l.onWindow w then { l with wait := .retry } else l } }) s

/-- The copies of a virtual function held on a window. -/
def State.retryCopies (s : State) (vf w : Nat) : State :=
  let f (_ : Nat) (c : CopyOp) : CopyOp :=
    if c.wait == some (.window w) && ctxVf (s.groups.at c.gid {}).ctx == vf then { c with wait := none } else c
  { s with cores := s.cores.mapAll fun _ k => { k with copies := KeyMap.mapAll k.copies f } }

/-- SET_WINDOW (R360, R411): copies held on the window go on too. -/
def execSetWindow (vf window : Nat) (rbase limit : DWord) (endpt rvf asid : Nat) (flags : BitVec 8) (s : State) : Result :=
  let w : Window := { rbase, limit := limit.toNat, endpt, rvf, asid := .ofNat 16 asid, flags }
  hostCommand s (if 32 ≤ vf || 256 ≤ window || !windowOk w rvf asid limit.toNat then none
    else
      let v := s.vf vf
      some ((((s.putVf vf { v with windows := v.windows.put window w }).retryWindow vf window).retryCopies vf window).answer true))

/-! ### Invalidation (R363 to R365) -/

/-- INVALIDATE: a TLBI at level H, with ga and gb as G[A] and G[B]; it completes once every access that used a dropped
translation is performed or held (R363, R365). -/
def execInvalidate (kind : Nat) (ga gb : DWord) (s : State) : Result :=
  let vf := bits gb.toNat 20 16
  if !s.hostOpen then .next s
  else if 4 < kind || bits gb.toNat 63 21 != 0 then refuse s
  else .next (if s.vfQuiet vf then (s.dropTlb kind vf (gb.truncate 16) ga).answer true else s)

end Sys2Proof.Machine
end

