-- ==== Sys2Proof/Machine/Save.lean ====
section
/-! DEFINITION. Sys2Proof/Machine/Save.lean: pre-emption, the save area, restoring, and migration (R388 to R402, R405 to R411,
R417, R418). The save area is written as laid out; a restore checks its header and takes from it what R399 lays out to the bit, the rest
from the copy on chip (log 35). -/
namespace Sys2Proof.Machine

/-! ### Stopping (R391, R392) -/

/-- Forms whose wait stands across a stop: lanes of an FPOST sent again, and a task that already has its record read. -/
def Wait.stays (w : Wait) : Bool :=
  match w.instr with
  | .fpost _ _ _ _ => true
  | .tspawn _ _ => w.phase == 1
  | _ => false

/-- Forms that complete before the save (R392). -/
def completesFirst : Instr → Bool
  | .bowchk _ _ _ _ | .tlbiVa _ _ _ | .tlbiAsid _ _ | .tlbiVf _ _ | .tlbiIpa _ _ _ | .tlbiS2 _ _ | .rtclose _ _ _ => true
  | _ => false

/-- The ticket register an engine form has emptied while it waits for a queue entry. -/
def ticketDest : Instr → Option Nat
  | .mma d _ _ _ _ | .mmaz d _ _ _ _ | .acld d _ _ _ _ | .acst d _ _ _ _ => some d.toNat
  | _ => none

/-- A wait withdrawn without effect (R392). -/
def State.withdrawWait (s : State) (gid : Nat) (g : Group) (m : Mask) (w : Wait) : State :=
  let s := (s.undoTag gid m w).popMark gid w.seq
  let s := s.updCrew g.crew fun c => { c with claims := c.claims.filter fun x => x != (gid, w.seq) }
  match ticketDest w.instr with
  | some d => s.updGroup gid fun g => g.fullG d
  | none => s

/-- The waits of a group's live entries withdrawn, each to be issued anew. -/
def State.withdrawAll (s : State) (gid : Nat) : State :=
  match s.groups.find gid with
  | none => s
  | some g =>
    if g.finalExit then s
    else
      let s := g.entries.foldl (fun s e => match e.wait with
        | some w => if w.stays then s else s.withdrawWait gid g e.mask w
        | none => s) s
      s.updGroup gid fun g => { g with entries := g.entries.map fun e =>
        { e with wait := e.wait.filter Wait.stays, held := none, fail := none, blocked := false } }

/-- Groups of a context. -/
def State.groupsOf (s : State) (key : Nat) : List (Nat × Group) := s.groups.filter fun g => g.2.ctx == key

/-- A group waits for nothing that the save waits for (R392). -/
def State.groupQuiet (s : State) (gid : Nat) (g : Group) : Bool :=
  g.fills.isEmpty && (g.posts.all fun p => p.pd == 0) &&
    (g.entries.all fun e => e.wait.all fun w => !completesFirst w.instr) && (s.drain gid fun _ => true).isNone &&
    !((s.core g.core).copies.any fun c => c.2.gid == gid)

/-- The context has come to rest: what R392 lets end has ended. -/
def State.ctxQuiet (s : State) (key : Nat) : Bool :=
  ((s.groupsOf key).all fun g => s.groupQuiet g.1 g.2) &&
    s.shoreQ.all fun r => (s.streams.at r.stream {}).ctx != key

/-- Issue stops: the context begins to be saved (R390, R398). -/
def State.beginSave (s : State) (key reason : Nat) : State :=
  let clock := (s.vf (ctxVf key)).clock
  s.updCtx key fun c =>
    { c with state := .saving, reason, stopClock := .ofNat 64 clock, stopAt := s.cycle, frame := 0, wasSave := true }

/-- A copy task cut at the unit it has reached (R394). -/
def CopyTask.cut (t : CopyTask) : CopyTask :=
  { t with src := t.src + BitVec.ofNat 64 (16 * t.done), dst := t.dst + BitVec.ofNat 64 (16 * t.done)
           size := t.size - 16 * t.done, done := 0, granted := none }

/-- Power leave returns, and requests for it are withdrawn (R392). -/
def State.returnLeave (s : State) (key : Nat) : State :=
  let s := { s with clusters := s.clusters.mapAll fun n c =>
    let c' := c.dropCtx s key n
    { c with out := c'.out, fifo := c'.fifo } }
  let s := { s with groups := s.groups.mapAll fun _ g =>
    if g.ctx == key then { g with engq := g.engq.map fun (o : EngOp) => { o with granted := none } } else g }
  { s with cores := s.cores.mapAll fun _ c => { c with copyTasks := c.copyTasks.map fun (t : CopyTask) => if t.ctx == key then t.cut else t } }

/-- QPOPs of the context that wait are withdrawn (R392). -/
def State.parkPops (s : State) (key : Nat) : State :=
  { s with queues := s.queues.mapAll fun _ q =>
    if q.ctx == key then { q with waiters := q.waiters.map fun w => { w with away := true } } else q }

/-- The context stands stopped (R392). -/
def State.settle (s : State) (key : Nat) : State :=
  let s := (s.groupsOf key).foldl (fun s g => s.withdrawAll g.1) s
  (s.returnLeave key).parkPops key

/-! ### The save area (R396 to R399) -/

/-- Crews of a context. -/
def State.crewsOf (s : State) (key : Nat) : List (Nat × Crew) := s.crews.filter fun c => c.2.ctx == key

/-- Bytes of a save area (R397). -/
def saveSize (n : Nat) : Nat := 0x100000 + n * 0x2040000

/-- The header (R398). -/
def State.saveHeader (s : State) (key st : Nat) : List Byte :=
  let c := s.ctx key
  let n := (s.vf (ctxVf key)).clusters.length
  leBytes 4 1 ++ leBytes 1 st ++ leBytes 1 c.reason ++ leBytes 2 0 ++ leBytes 4 (s.crewsOf key).length ++ leBytes 4 n ++
    leBytes 8 c.stopClock.toNat ++ leBytes 8 (saveSize n) ++ leBytes 8 c.faultAt ++ leBytes 216 0

/-- A crew-index entry (R398). -/
def State.crewEntry (s : State) (c : Crew) : List Byte :=
  leBytes 8 c.params.recAddr.toNat ++ leBytes 4 c.idx ++ leBytes 2 ((s.vf (ctxVf c.ctx)).coreNumber c.core) ++
    leBytes 1 c.params.groups ++ leBytes 1 c.params.bands ++ leBytes 4 c.params.scratch ++ leBytes 4 c.sbase ++
    leBytes 1 c.band0 ++ leBytes 1 (c.groups.headD 0 % 96) ++ leBytes 6 0

/-- The first register block of a resident group, blocks given out in the order of the groups' slots (log 35). -/
def State.firstBlock (s : State) (gid : Nat) : Nat :=
  ((s.resident (gid / 96)).filter fun g => g.1 < gid).foldl (fun n g => n + g.2.blocks) 0

/-- The registers of a group's block j: register i, lane L at 512 i + 4 L (R399). -/
def Group.blockBytes (g : Group) (j : Nat) : List Byte :=
  (List.range 8).flatMap fun i => (List.finRange 128).flatMap fun l => leBytes 4 (g.vAt (8 * j + i) l).toNat

/-- The empty bits of a group's block j. -/
def Group.blockEmpty (g : Group) (j : Nat) : List Byte :=
  (List.range 8).flatMap fun i => leBytes 16 (vecGet g.ve (8 * j + i) 0).toNat

/-- What a part of the save area holds, so that a restore can take it back (R402); `kept` is a part whose inner layout the
manual leaves open, or which goes on changing during the stop (R395; log 35). -/
inductive SavePart where
  /-- Registers, or empty bits, of block `j` of group `gid`. -/
  | block (gid j : Nat)
  | empty (gid j : Nat)
  /-- The scratchpad bytes of a crew, from core offset `base`. -/
  | pad (core base : Nat)
  /-- The scratchpad tags of a core. -/
  | tags (core : Nat)
  /-- The remnant of copy task `id`. -/
  | task (core id : Nat)
  /-- The record of group `gid`. -/
  | group (gid : Nat)
  /-- One accumulator row of a cluster. -/
  | acc (cluster row : Nat)
  | kept
  deriving DecidableEq, Repr

/-- Bytes whose layout the manual leaves open (R399; log 35). -/
def packed_ (n kind : Nat) (xs : List Nat) : List Byte := (List.range n).map fun i => Config.packByte kind xs i

/-- An engine-queue entry of a group record. -/
def EngOp.saved (o : EngOp) : List Byte :=
  packed_ 128 1 [o.seq, o.slotA.toNat, o.slotB.toNat, o.base.toNat, o.rect.toNat, o.tile, o.row, o.blk.m, o.blk.n, o.blk.k,
    o.blk.aaddr, o.blk.astride, o.blk.baddr, o.blk.bstride, o.blk.row0, o.blk.col0]

/-- A group record (R399). -/
def State.groupRecord (s : State) (gid : Nat) (g : Group) : List Byte :=
  let b0 := s.firstBlock gid
  let fail := match g.batchFails with
    | [] => 0
    | f :: _ => f.cause.code + 256 * (f.batch % 2 ^ 32)
  let srs := [g.priv.code, g.arith.toNat, g.seed.toNat, g.wdog.toNat, g.tcause.toNat, g.tpc.toNat, g.taddr.toNat,
    g.tlanes.toNat % 2 ^ 64, g.tlanes.toNat / 2 ^ 64, g.trep.toNat, g.tinfo.toNat, g.tbarae.toNat, g.tbartx.toNat,
    g.tlogpc.toNat, g.tsavea.toNat, g.tsaveb.toNat, g.tfsel.toNat, g.preempts.toNat, g.savedCycles.toNat]
  leBytes 2 (if g.finalExit then 3 else 1) ++ leBytes 1 g.idx ++ leBytes 1 g.blocks ++ leBytes 4 g.batch ++
    ((List.range 16).flatMap fun j => leBytes 2 (if j < g.blocks then b0 + j else 0xFFFF)) ++
    leBytes 2 g.q.toNat ++ leBytes 2 g.qe.toNat ++ leBytes 1 g.sealedBatches.length ++ leBytes 3 0 ++
    leBytes 8 g.ge.toNat ++ leBytes 8 fail ++ ((List.range 64).flatMap fun i => leBytes 8 (g.gAt i).toNat) ++
    ((List.range 24).flatMap fun i => leBytes 8 (srs.getD i 0)) ++
    ((List.range 48).flatMap fun i => leBytes 16 (g.pAt i).toNat) ++
    ((List.range 48).flatMap fun i => leBytes 16 (vecGet g.pe i 0).toNat) ++
    ((List.finRange 128).flatMap fun l => leBytes 4 g.rng[l].toNat) ++
    ((List.range 4).flatMap fun i => match g.engq[i]? with
      | some o => o.saved
      | none => leBytes 128 0) ++ leBytes 768 0

/-- A copy-task remnant (R418). -/
def CopyTask.remnant (t : CopyTask) : List Byte :=
  leBytes 8 t.src.toNat ++ leBytes 8 t.dst.toNat ++ leBytes 8 t.size ++ leBytes 8 t.record.toNat ++ leBytes 8 t.succ.toNat ++
    leBytes 1 1 ++ leBytes 23 0

/-- The scratchpad tags of a core as its frame shows them: words of other contexts read full. -/
def State.tagImage (s : State) (key core : Nat) : List Byte :=
  let mine := (s.crewsOn core).filter fun c => c.2.ctx == key
  let full (w : Nat) : Bool :=
    !((mine.any fun c => c.2.sbase ≤ 4 * w && 4 * w < c.2.sbase + c.2.params.scratch) && (s.core core).emptyTags.contains w)
  (List.range 32768).map fun i =>
    .ofNat 8 ((List.range 8).foldl (fun n k => n + (if full (8 * i + k) then 2 ^ k else 0)) 0)

/-- A barrier as the frame holds it. -/
def Barrier.saved (b : Barrier) : List Byte :=
  packed_ 32 2 [b.a, b.e, b.tx.toNat, (-b.tx).toNat, b.done.toNat, b.scope.toNat, b.refs, b.gen]

/-- A range-lock entry as the frame holds it. -/
def Lock.saved (asid : Nat) (l : Lock) : List Byte :=
  let side (x : Option (Space × Nat × Nat)) : List Nat := match x with
    | some (sp, a, b) => [sp.order, a, b]
    | none => []
  packed_ 64 3 (asid :: side l.src ++ side l.dst)

/-- The parts of a core frame, by offset in the frame (R399). -/
def State.coreFrame (s : State) (key core : Nat) : List (SavePart × Nat × List Byte) :=
  let gs := (s.groupsOf key).filter fun g => g.2.core == core
  let c := s.core core
  let blocks := gs.flatMap fun g => (List.range g.2.blocks).map fun j =>
    (SavePart.block g.1 j, 4096 * (s.firstBlock g.1 + j), g.2.blockBytes j)
  let empties := gs.flatMap fun g => (List.range g.2.blocks).map fun j =>
    (SavePart.empty g.1 j, 0x300000 + 128 * (s.firstBlock g.1 + j), g.2.blockEmpty j)
  let pads := ((s.crewsOn core).filter fun x => x.2.ctx == key && x.2.sbase + x.2.params.scratch ≤ 2 ^ 20).map fun x =>
    (SavePart.pad core x.2.sbase, 0x200000 + x.2.sbase, s.scratchBytes core x.2.sbase x.2.params.scratch)
  let bars := (c.barriers.filter fun b => b.2.live && b.2.ctx == key).map fun b => (SavePart.kept, 0x318000 + 32 * b.1, b.2.saved)
  let locks := (c.locks.filter fun l => l.owner.ofCtx s key).zipIdx.map fun l =>
    (SavePart.kept, 0x31A000 + 64 * l.2, l.1.saved (s.ctx key).asid.toNat)
  let jobs := (c.copyTasks.filter fun t => t.ctx == key).zipIdx.map fun t =>
    (SavePart.task core t.1.id, 0x31B000 + 64 * t.2, t.1.remnant)
  let recs := gs.map fun g => (SavePart.group g.1, 0x328000 + 4096 * (g.1 % 96), s.groupRecord g.1 g.2)
  let zero := (SavePart.kept, 0x31D000, leBytes 45056 0)
  blocks ++ pads ++ empties ++ [(SavePart.tags core, 0x310000, s.tagImage key core)] ++ bars ++ locks ++ jobs ++ [zero] ++ recs

/-- The accumulator rows of the context's crews in a cluster, by row (R397). -/
def State.accFrame (s : State) (key cluster : Nat) : List (SavePart × Nat × List Byte) :=
  let crews := (s.crewsOf key).filter fun c => c.2.core / 8 == cluster
  let rows := crews.flatMap fun c => (List.range (128 * c.2.params.bands)).map fun r => 128 * c.2.band0 + r
  rows.map fun r => (SavePart.acc cluster r, 4096 * r, (List.range 1024).flatMap fun j => leBytes 4 ((s.cluster cluster).accAt (1024 * r + j)))

/-- Everything written between the two header states, by offset in the save area (R397). -/
def State.savePieces (s : State) (key : Nat) : List (SavePart × Nat × List Byte) :=
  let v := s.vf (ctxVf key)
  let crews := s.crewsOf key
  let cores := (crews.map fun c => c.2.core).eraseDups
  let clusters := (cores.map fun c => c / 8).eraseDups
  (crews.zipIdx.map fun c => (SavePart.kept, 0x100 + 32 * c.2, s.crewEntry c.1.2)) ++
    (cores.flatMap fun k => (s.coreFrame key k).map fun p =>
      (p.1, 0x100000 + 0x388000 * v.coreNumber k + p.2.1, p.2.2)) ++
    clusters.flatMap fun k => (s.accFrame key k).map fun p =>
      (p.1, 0x100000 + 0x388000 * 8 * v.clusters.length + 0x400000 * v.rank k + p.2.1, p.2.2)

/-- The physical place of a byte of a pinned save area (R396). -/
def State.savePlace (s : State) (vf ipa : Nat) : Option Nat :=
  let v := s.vf vf
  match s.stage2 vf ipa with
  | .ok pa e _ =>
    if inRegions v.saveRegions pa 16 && bits e 5 2 == 0 && !s.noMemory pa then some pa else none
  | _ => none

/-- Write bytes into a save area; none where a page or line refuses (R401, R422). -/
def State.saveWrite (vf : Nat) : Nat → Nat → List Byte → State → Option State
  | 0, _, _, s => some s
  | n + 1, ipa, bs, s =>
    if bs.isEmpty then some s
    else
      let k := 65536 - ipa % 65536
      let now := bs.take k
      match s.savePlace vf ipa with
      | none => none
      | some pa =>
        let lines := (List.range ((pa % 64 + now.length + 63) / 64)).map fun i => pa / 64 + i
        let whole (l : Nat) : Bool := pa ≤ 64 * l && 64 * l + 64 ≤ pa + now.length
        if lines.any fun l => !whole l && (s.lineFault (64 * l)).isSome then none
        else
          let s := { s with mem := s.mem.writeBytes pa now }.freshLines (lines.filter whole)
          State.saveWrite vf n (ipa + now.length) (bs.drop k) s

/-- Write a header; a page that cannot be written leaves it (R401). -/
def State.putHeader (s : State) (key st : Nat) : State :=
  (State.saveWrite (ctxVf key) 2 (s.ctx key).save.toNat (s.saveHeader key st) s).getD s

/-- A save or restore meets a fault: every context of the virtual function stops, and the hypervisor is told (R401). -/
def State.saveFaults (s : State) (key frame addr : Nat) (wasSave : Bool) : State :=
  let s := (s.updCtx key fun c => { c with state := .faulted, frame, faultAt := addr, wasSave }).putHeader key 4
  let s := s.updVf (ctxVf key) fun v => { v with saveFault := some (key % 4096, .ofNat 64 addr) }
  s.postErr { addr := .ofNat 64 addr, kind := 0x0D, vf := ctxVf key, ctx := key % 4096 }

/-- Write the parts of the save area from part n on. -/
def State.writePieces (key base : Nat) : List (SavePart × Nat × List Byte) → Nat → State → State
  | [], _, s => (s.updCtx key fun c => { c with state := .saved, frame := 0 }).putHeader key 2
  | p :: rest, n, s =>
    match State.saveWrite (ctxVf key) (p.2.2.length / 65536 + 2) (base + p.2.1) p.2.2 s with
    | some s => State.writePieces key base rest (n + 1) s
    | none => s.saveFaults key n (base + p.2.1) true

/-- Write the save area of a settled context, from the part at which a fault left it (R390, R401). -/
def State.writeSave (s : State) (key : Nat) : State :=
  let c := s.ctx key
  match State.saveWrite (ctxVf key) 2 c.save.toNat (s.saveHeader key 1) s with
  | none => s.saveFaults key c.frame c.save.toNat true
  | some s => State.writePieces key c.save.toNat ((s.savePieces key).drop c.frame) c.frame s

/-- The virtual function is the source of a migration that quiesces. -/
def State.migrating (s : State) (vf : Nat) : Bool := (s.vf vf).mig.any fun m => m.source && !m.quiesced

/-- A stopping context that has come to rest is saved: into its save area, or for a migration into the bundle (R405). -/
def State.finishSave (s : State) (key : Nat) : State :=
  let s := s.settle key
  if s.migrating (ctxVf key) then s.updCtx key fun c => { c with state := .saved } else s.writeSave key

/-- A context whose save can finish now. -/
def State.saveReady (s : State) (key : Nat) : Bool :=
  (s.ctx key).state == .saving && (s.vf (ctxVf key)).saveFault.isNone && s.ctxQuiet key

/-- PREEMPT (R390). -/
def execPreempt (vf ctx reason : Nat) (s : State) : Result :=
  let key := ctxKey vf ctx
  hostCommand s (match s.contexts.find key with
    | none => none
    | some c =>
      if c.state != .live || 4 < reason || 4096 ≤ ctx then none
      else
        let s := (s.answer true).beginSave key reason
        some (if s.saveReady key then s.finishSave key else s))

/-! ### Restoring (R402) -/

/-- The physical bytes of a save area, page by page; none where a page or line refuses. -/
def State.saveRead (s : State) (vf : Nat) : Nat → Nat → Nat → Option (List Byte)
  | 0, _, _ => some []
  | n + 1, ipa, len =>
    if len = 0 then some []
    else
      let k := min len (65536 - ipa % 65536)
      match s.savePlace vf ipa with
      | none => none
      | some pa =>
        if (List.range ((pa % 64 + k + 63) / 64)).any fun i => (s.lineFault (64 * (pa / 64 + i))).isSome then none
        else (s.saveRead vf n (ipa + k) (len - k)).map fun rest => s.mem.bytes pa k ++ rest

/-- A crew-index entry is in range. -/
def crewEntryOk (n : Nat) (r : List Byte) : Bool :=
  field r 0x0C 2 < 8 * n && 1 ≤ field r 0x0E 1 && field r 0x0E 1 ≤ 96 && field r 0x18 1 + field r 0x0F 1 ≤ 8 &&
    field r 0x10 4 ≤ 1048576 && field r 0x19 1 < 96

/-- The header passes R402's checks: none where it cannot be read. -/
def State.headerOk (s : State) (key : Nat) : Option Bool :=
  let base := (s.ctx key).save.toNat
  let n := (s.vf (ctxVf key)).clusters.length
  match s.saveRead (ctxVf key) 2 base 256 with
  | none => none
  | some h =>
    let crews := min (field h 8 4) 24576
    (s.saveRead (ctxVf key) 16 (base + 0x100) (32 * crews)).map fun t =>
      field h 0 4 == 1 && field h 4 1 == 2 && field h 0x0C 4 == n && field h 8 4 ≤ 24576 &&
        (List.range crews).all fun i => crewEntryOk n (t.drop (32 * i))

/-- A logged lane has its reply. -/
def LogLane.replied (l : LogLane) : Bool := l.wait == .retry

/-- A withdrawn QPOP is issued anew (R296, R392). -/
def State.popAnew (s : State) (i : Nat) (w : Waiter) : State :=
  match s.queues.find i with
  | none => s
  | some q => match q.pop with
    | some (v, q') => (s.updQueue i fun _ => q').handOver w.gid w.d v
    | none => s.updQueue i fun q => { q with waiters := q.waiters ++ [{ w with away := false }] }

/-- The withdrawn QPOPs of a context are issued anew, behind those that have arrived. -/
def State.popsAnew (s : State) (key : Nat) : State :=
  let mine := s.queues.flatMap fun q => if q.2.ctx == key then (q.2.waiters.filter fun w => w.away).map fun w => (q.1, w) else []
  let s := { s with queues := s.queues.mapAll fun _ q =>
    if q.ctx == key then { q with waiters := q.waiters.filter fun w => !w.away } else q }
  mine.foldl (fun s x => s.popAnew x.1 x.2) s

/-- Leave is requested again by a context's copy tasks and engine queues (R392, R402). -/
def State.askAgain (s : State) (key : Nat) : State :=
  let tasks := s.cores.flatMap fun c =>
    (c.2.copyTasks.filter fun t => t.ctx == key && 2 ^ 20 < t.size).map fun t => (c.1 / 8, LockOwner.task c.1 t.id)
  let ops := (s.groupsOf key).flatMap fun g => g.2.engq.map fun o => (g.2.core / 8, LockOwner.eng g.1 o.seq)
  (tasks ++ ops).foldl (fun s x => s.updCluster x.1 fun c => { c with fifo := c.fifo ++ [x.2] }) s

/-- The context runs again after a stop of so many cycles (R400, R402). -/
def State.revive (s : State) (key stop : Nat) : State :=
  let s := { s with groups := s.groups.mapAll fun _ g =>
    if g.ctx == key then { g with preempts := g.preempts + 1, savedCycles := g.savedCycles + BitVec.ofNat 64 stop } else g }
  let s := (s.askAgain key).updCtx key fun c => { c with state := .live, frame := 0 }
  let s := (s.groupsOf key).foldl (fun s g => s.replayGroup g.1 LogLane.replied) s
  s.popsAnew key

/-- The registers of block j as a save area holds them. -/
def Group.takeBlock (g : Group) (j : Nat) (bs : List Byte) : Group :=
  { g with v := (List.range 8).foldl (fun v i =>
      let row := (bs.drop (512 * i)).take 512
      vecMod v (8 * j + i) fun _ => lanesOf fun l => .ofNat 32 (field row (4 * l.val) 4)) g.v }

/-- The empty bits of block j as a save area holds them. -/
def Group.takeEmpty (g : Group) (j : Nat) (bs : List Byte) : Group :=
  { g with ve := (List.range 8).foldl (fun v i => vecMod v (8 * j + i) fun _ => .ofNat 128 (field bs (16 * i) 16)) g.ve }

/-- What a group record lays out to the bit, taken into a group (R399). P0 is not stored. -/
def Group.takeRecord (g : Group) (bs : List Byte) : Group :=
  let sr (i : Nat) : Nat := field bs (0x240 + 8 * i) 8
  { g with
    batch := field bs 4 4
    q := .ofNat 16 (field bs 0x28 2)
    qe := .ofNat 16 (field bs 0x2A 2)
    ge := .ofNat 64 (field bs 0x30 8)
    g := Vector.ofFn fun i : Fin 64 => .ofNat 64 (field bs (0x40 + 8 * i.val) 8)
    priv := match sr 0 with
      | 0 => .l
      | 1 => .s
      | 2 => .h
      | _ => g.priv
    arith := .ofNat 7 (sr 1)
    seed := .ofNat 32 (sr 2)
    wdog := .ofNat 48 (sr 3)
    tcause := .ofNat 32 (sr 4)
    tpc := .ofNat 64 (sr 5)
    taddr := .ofNat 64 (sr 6)
    tlanes := .ofNat 128 (sr 7 + 2 ^ 64 * sr 8)
    trep := .ofNat 7 (sr 9)
    tinfo := .ofNat 32 (sr 10)
    tbarae := .ofNat 32 (sr 11)
    tbartx := .ofNat 64 (sr 12)
    tlogpc := .ofNat 64 (sr 13)
    tsavea := .ofNat 64 (sr 14)
    tsaveb := .ofNat 64 (sr 15)
    tfsel := .ofNat 7 (sr 16)
    preempts := .ofNat 32 (sr 17)
    savedCycles := .ofNat 64 (sr 18)
    p := Vector.ofFn fun i : Fin 48 => if i.val = 0 then g.p[i] else .ofNat 128 (field bs (0x300 + 16 * i.val) 16)
    pe := Vector.ofFn fun i : Fin 48 => .ofNat 128 (field bs (0x600 + 16 * i.val) 16)
    rng := lanesOf fun l => .ofNat 32 (field bs (0x900 + 4 * l.val) 4) }

/-- The tags of the words a context's crews hold in a core, taken from the tags of a frame. -/
def State.takeTags (s : State) (key core : Nat) (bs : List Byte) : State :=
  let mine := (s.crewsOn core).filter fun c => c.2.ctx == key
  let inMine (w : Nat) : Bool := mine.any fun c => c.2.sbase ≤ 4 * w && 4 * w < c.2.sbase + c.2.params.scratch
  let empties := bs.zipIdx.flatMap fun b => (List.range 8).filterMap fun k =>
    if !b.1.getLsbD k && inMine (8 * b.2 + k) then some (8 * b.2 + k) else none
  s.updCore core fun c => { c with
    emptyTags := empties.foldl (fun l w => insertNat w l) (c.emptyTags.filter fun w => !inMine w) }

/-- A remnant taken back: what is left of a copy task (R394, R418). -/
def CopyTask.takeRemnant (t : CopyTask) (bs : List Byte) : CopyTask :=
  { t with src := .ofNat 64 (field bs 0 8), dst := .ofNat 64 (field bs 8 8), size := field bs 16 8,
           record := .ofNat 64 (field bs 24 8), succ := .ofNat 64 (field bs 32 8) }

/-- One part of a save area taken back (R402). -/
def State.takePart (s : State) (key : Nat) (part : SavePart) (bs : List Byte) : State :=
  match part with
  | .block gid j => s.updGroup gid fun g => g.takeBlock j bs
  | .empty gid j => s.updGroup gid fun g => g.takeEmpty j bs
  | .pad core base => s.updCore core fun c => { c with mem := c.mem.writeBytes base bs }
  | .tags core => s.takeTags key core bs
  | .task core id => s.updCore core fun c =>
      { c with copyTasks := c.copyTasks.map fun t => if t.id == id then t.takeRemnant bs else t }
  | .group gid => s.updGroup gid fun g => g.takeRecord bs
  | .acc cluster row => s.updCluster cluster fun c =>
      (List.range 1024).foldl (fun c j => c.setAcc (1024 * row + j) (field bs (4 * j) 4)) c
  | .kept => s

/-- Read the parts of the save area from part n on; with the last the context runs again. -/
def State.readPieces (key base : Nat) : List (SavePart × Nat × List Byte) → Nat → State → State
  | [], _, s => (s.putHeader key 0).revive key (s.cycle - (s.ctx key).stopAt)
  | p :: rest, n, s =>
    match s.saveRead (ctxVf key) (p.2.2.length / 65536 + 2) (base + p.2.1) p.2.2.length with
    | some bs => State.readPieces key base rest (n + 1) (s.takePart key p.1 bs)
    | none => s.saveFaults key n (base + p.2.1) false

/-- Restore from the part at which a fault left it. -/
def State.readSave (s : State) (key : Nat) : State :=
  let c := s.ctx key
  let s := (s.updCtx key fun c => { c with state := .restoring }).putHeader key 3
  State.readPieces key c.save.toNat ((s.savePieces key).drop c.frame) c.frame s

/-- RESUME (R390, R402). -/
def execResume (vf ctx : Nat) (s : State) : Result :=
  let key := ctxKey vf ctx
  hostCommand s (if (s.ctx key).state != .saved || (s.contexts.find key).isNone || 4096 ≤ ctx then none
    else match s.headerOk key with
    | none => some ((s.answer true).saveFaults key 0 (s.ctx key).save.toNat false)
    | some false => none
    | some true => some ((s.answer true).readSave key))

/-- SAVE_RETRY (R390, R401). -/
def execSaveRetry (vf : Nat) (s : State) : Result :=
  hostCommand s ((s.vf vf).saveFault.map fun f =>
    let key := ctxKey vf f.1
    let s := (s.answer true).updVf vf fun v => { v with saveFault := none }
    if (s.ctx key).wasSave then s.writeSave key else s.readSave key)

/-- KILL (R376, R390). -/
def execKill (vf ctx : Nat) (s : State) : Result :=
  hostCommand s (if (s.contexts.find (ctxKey vf ctx)).isNone || 4096 ≤ ctx then none
    else some ((s.answer true).killContext (ctxKey vf ctx) 3 0 0))

/-- The leaf that maps a 64 KiB page, whatever its OWN: its address and the entry (R350, R407). -/
def State.leafOf (s : State) : List Nat → Nat → Nat → Option (Nat × Nat)
  | [], _, _ => none
  | sh :: rest, base, ipa =>
    let at8 := base + 8 * (ipa / 2 ^ sh % 8192)
    let e := s.mem.readN at8 8
    match bits e 1 0 with
    | 2 => if bits e 7 6 == 0 then s.leafOf rest (entOA e) ipa else none
    | 3 => if sh == 16 then some (at8, e) else none
    | _ => none

/-- The leaf of an intermediate address of a virtual function. -/
def State.pageLeaf (s : State) (vf ipa : Nat) : Option (Nat × Nat) := s.leafOf [42, 29, 16] (s.vf vf).s2root.toNat ipa

/-! ### Migration: shape and bundle (R405, R406, R410, R417) -/

/-- The die rank of each cluster rank (R406). -/
def VF.dieRanks (v : VF) : List Nat := v.clusters.map fun c => v.dieRank (8 * c)

/-- The neighbour relation of the cluster ranks, with the link of each (R406). -/
def VF.rankLinks (v : VF) : List (Nat × Nat × Nat) :=
  v.clusters.flatMap fun c => (List.range 4).filterMap fun k =>
    if v.clusters.contains (neighbour c k) then some (v.rank c, k, v.rank (neighbour c k)) else none

/-- Two relations are one. -/
def sameLinks (a b : List (Nat × Nat × Nat)) : Bool := a.all b.contains && b.all a.contains

/-- MIG_PREPARE (R390, R405, R406). -/
def execMigPrepare (vf : Nat) (dies : List Nat) (links : List (Nat × Nat × Nat)) (s : State) : Result :=
  let v := s.vf vf
  hostCommand s (if !v.exists_ || v.mig.isSome || v.dieRanks != dies || !sameLinks v.rankLinks links then none
    else some ((s.putVf vf { v with mig := some { source := false } }).answer true))

/-- Contexts of a virtual function. -/
def State.ctxKeys (s : State) (vf : Nat) : List Nat := (s.contexts.filter fun c => ctxVf c.1 == vf).map fun c => c.1

/-- A stream as it is sent: its plane pages by intermediate page, which the target turns into its receiving frames (R355). -/
def State.sealStream (s : State) (t : Stream) : Stream :=
  let c := s.ctx t.ctx
  let walk (va : Nat) : Tr := s1Walk s (ctxVf t.ctx) c.asid (va * 65536) .load t.priv [42, 29, 16] c.s1root.toNat []
  { t with pages := t.pages.mapAll fun va _ => match walk va with
      | .ok e => e.ipage
      | _ => 0 }

/-- What a virtual function's bundle holds, in this device's numbers; an L1's copies stay behind (R405). -/
def State.bundleOf (s : State) (vf : Nat) : Bundle :=
  let v := s.vf vf
  let mine (key : Nat) : Bool := ctxVf key == vf
  { contexts := s.contexts.keep fun k _ => mine k
    groups := s.groups.keep fun _ g => mine g.ctx
    crews := s.crews.keep fun _ c => mine c.ctx
    launches := s.launches.keep fun _ l => mine l.ctx
    queues := s.queues.keep fun _ q => q.live && mine q.ctx
    streams := (s.streams.keep fun _ t => t.live && mine t.ctx).mapAll fun _ t => s.sealStream t
    sets := s.sets.keep fun _ t => mine t.ctx
    slots := s.slots.keep fun _ t => mine t.ctx
    cores := (s.cores.keep fun k _ => v.clusters.contains (k / 8)).mapAll fun _ c => { c with l1 := [] }
    clusters := s.clusters.keep fun k _ => v.clusters.contains k
    order := v.order
    pending := s.pending.filter fun p => mine p.ctx
    nrwaits := s.nrwaits.filter fun w => mine w.ctx
    runs := s.shoreHeld.filter fun r => mine (s.streams.at r.stream {}).ctx
    clock := v.clock }

/-- Every context of a quiescing virtual function is saved. -/
def State.bundleReady (s : State) (vf : Nat) : Bool :=
  s.migrating vf && (s.ctxKeys vf).all fun k => (s.ctx k).state == .saved

/-- The bundle is sealed and sent; page requests are retired, and held inbound requests are served (R405, R417). -/
def State.sendBundle (s : State) (vf : Nat) : State :=
  match (s.vf vf).mig with
  | none => s
  | some m =>
    let s := s.send (.bundle m.endpt vf (s.bundleOf vf))
    let s := s.updVf vf fun v =>
      { v with mig := some { m with quiesced := true }, retired := v.retired ++ v.requests.filterMap fun q => q.tag, requests := [] }
    s.retryInbound fun h => h.vf == vf && h.reason == 3

/-- MIG_START; whether a prepared target answers at the endpoint comes with the command (R390, R405). -/
def execMigStart (vf endpt target : Nat) (answers : Bool) (s : State) : Result :=
  let v := s.vf vf
  hostCommand s (if !answers || !v.exists_ || v.mig.isSome || v.saveFault.isSome then none
    else
      let s := (s.answer true).putVf vf { v with mig := some { source := true, endpt, target } }
      let keys := (s.ctxKeys vf).filter fun k => (s.ctx k).state == .live
      let s := keys.foldl (fun s k => s.beginSave k 3) s
      let s := keys.foldl (fun s k => if s.saveReady k then s.finishSave k else s) s
      some (if s.bundleReady vf then s.sendBundle vf else s))

/-- Put every entry of a bundle's map into the device's. -/
def KeyMapPutAll {α : Type} (m b : KeyMap α) : KeyMap α := b.foldl (fun (m : KeyMap α) x => KeyMap.put m x.1 x.2) m

/-- Lanes that waited for a page on the source walk again on the target (R417). -/
def Group.arriveLog (g : Group) : Group :=
  { g with oplog := g.oplog.map fun o => o.map fun e =>
      { e with lanes := e.lanes.map fun l => match l.wait with
        | .page _ => { l with wait := .retry }
        | _ => l } }

/-- A stream as it arrives: its pages are the receiving frames, and its fragments lie at the units of those (R355, R410). -/
def State.landStream (s : State) (vf : Nat) (t : Stream) : Stream :=
  let t := { t with pages := t.pages.mapAll fun _ ip => match s.pageLeaf vf (ip * 65536) with
      | some (_, e) => entOA e / 65536
      | none => 0 }
  { t with views := [], flight := t.flight.map fun f => (s.shoreUnit t f.2.x f.2.y, f.2)
           held := t.held.map fun f => (s.shoreUnit t f.2.x f.2.y, f.2) }

/-- The arrived streams' frontiers reach every unit of the target (R234). -/
def State.viewAll (s : State) (vf : Nat) (b : Bundle) : State :=
  b.streams.foldl (fun s t => ((s.vf vf).shoreUnits).foldl (fun s u => s.viewFrontier t.1 u) s) s

/-- A lane of a store FIFO entry that had its place on the source walks again on the target: its new place, or the log
entry that keeps it (R185, R408). -/
def State.rewalkLane (s : State) (g : Group) (src : Source) (k : Acc) (lane : Fin 128) (addr : DWord) (loc : Loc) (n : Nat)
    (data : List Word) : Except LogLane Loc :=
  match loc with
  | .phys _ => match s.againAt g lane.val addr.toNat n k src.lev with
    | .loc l _ => .ok l
    | .log w _ _ => .error { lane, addr, data, wait := w }
    | .bad _ c => .error { lane, addr, data, wait := .lost c s.tick }
  | l => .ok l

/-- The lanes that keep a place. -/
def placedAgain {α : Type} (xs : List (α × Except LogLane Loc)) (f : α → Loc → α) : List α :=
  xs.filterMap fun x => match x.2 with
    | .ok l => some (f x.1 l)
    | .error _ => none

/-- The lanes that go to the log. -/
def loggedAgain {α : Type} (xs : List (α × Except LogLane Loc)) : List LogLane :=
  xs.filterMap fun x => match x.2 with
    | .ok _ => none
    | .error l => some l

/-- A store FIFO entry walked again, and the lanes it leaves to the log. -/
def State.rewalkOp (s : State) (g : Group) : FifoOp → FifoOp × Source × List LogLane
  | .store src ps =>
    let xs := ps.map fun p => (p, s.rewalkLane g src .store p.lane p.addr p.loc p.bytes.length p.words)
    (.store src (placedAgain xs fun p loc => { p with loc }), src, loggedAgain xs)
  | .bowset src set tile bow ps =>
    let xs := ps.map fun p => (p, s.rewalkLane g src .store p.lane p.addr p.loc p.bytes.length p.words)
    (.bowset src set tile bow (placedAgain xs fun p loc => { p with loc }), src, loggedAgain xs)
  | .atom src o lanes d =>
    let xs := lanes.map fun x => (x, s.rewalkLane g src .atomic x.lane x.addr x.loc (aopBytes o.toNat) (opWords x.x x.y))
    (.atom src o (placedAgain xs fun x loc => { x with loc }) d, src, loggedAgain xs)
  | o => (o, {}, [])

/-- The stores that a group's FIFO brought with it walk again (R185). -/
def State.rewalk (s : State) (gid : Nat) : State :=
  let g := s.groups.at gid {}
  let ops := g.fifo.map (s.rewalkOp g)
  s.updGroup gid fun g =>
    (ops.filter fun o => !o.2.2.isEmpty).foldl (fun g o => g.logLanes o.2.1 o.2.2) { g with fifo := ops.map (·.1) }

/-- A bundle's contents take their places; SR.CLOCK goes on from the quiesce, the time of the transfer added, which is free
(R73, R402, R405, R410; log 2). -/
def State.takeBundle (s : State) (vf : Nat) (b : Bundle) : State :=
  let launchNext : Nat := (b.launches.map (·.1)).foldl (fun n k => max n (k + 1)) s.nextLaunch
  let crewNext : Nat := (b.crews.map (·.1)).foldl (fun n k => max n (k + 1)) s.nextCrew
  let s : State := { s with
    contexts := KeyMapPutAll s.contexts b.contexts
    groups := KeyMapPutAll s.groups (b.groups.mapAll fun _ g => g.arriveLog)
    crews := KeyMapPutAll s.crews b.crews
    launches := KeyMapPutAll s.launches b.launches
    queues := KeyMapPutAll s.queues b.queues
    streams := KeyMapPutAll s.streams (b.streams.mapAll fun _ t => s.landStream vf t)
    sets := KeyMapPutAll s.sets b.sets
    slots := KeyMapPutAll s.slots b.slots
    cores := KeyMapPutAll s.cores b.cores
    clusters := KeyMapPutAll s.clusters b.clusters
    nrwaits := s.nrwaits ++ b.nrwaits
    shoreQ := s.shoreQ ++ b.runs.map fun (r : Run) => { r with held := none }
    pending := s.pending ++ b.pending
    nextLaunch := launchNext
    nextCrew := crewNext
    bundles := s.bundles.del vf }
  let clock := b.clock + Config.cycles s.tick
  let s := s.updVf vf fun v => { v with clock, moves := v.moves + 1, order := b.order }
  let s := b.groups.foldl (fun s g => s.rewalk g.1) s
  let s := b.contexts.foldl (fun s c => s.revive c.1 ((clock - c.2.stopClock.toNat) % 2 ^ 64)) s
  (s.viewAll vf b).retryPending fun p => ctxVf p.ctx == vf

/-- BUNDLE_RESUME: the bundle stands here in the target's own numbers (R402, R405; log 37). -/
def execBundleResume (vf : Nat) (s : State) : Result :=
  match (s.vf vf).mig, s.bundles.find vf with
  | some m, some b => .next (if m.source then s else s.takeBundle vf b)
  | _, _ => .next s

/-! ### Migration: pages (R407 to R409) -/

/-- OWN of an entry. -/
def ownOf (e : Nat) : Nat := bits e 7 6

/-- An entry with another OWN. -/
def withOwn (e own : Nat) : Nat := e - 64 * ownOf e + 64 * own

/-- Write OWN into a leaf; no cached translation of the page stays (R357). -/
def State.setOwn (s : State) (vf ipa : Nat) (leaf : Nat × Nat) (own : Nat) : State :=
  { s.dropIpa vf (ipa / 65536) with mem := s.mem.writeN leaf.1 8 (withOwn leaf.2 own) }

/-- The pages below a table whose leaves satisfy a test, as intermediate page numbers. -/
def pagesBelow (m : Memory) (f : Nat → Bool) : List Nat → Nat → Nat → List Nat
  | [], _, _ => []
  | sh :: rest, base, ipa => (tablePlaces m base).flatMap fun i =>
    let e := Memory.readN m (base + 8 * i) 8
    match bits e 1 0 with
    | 2 => pagesBelow m f rest (entOA e) (ipa + i * 2 ^ sh)
    | 3 => if sh == 16 && f e then [(ipa + i * 2 ^ sh) / 65536] else []
    | _ => []

/-- Pages of a virtual function with an OWN: those whose frame lies in its regions, so not its save area's (R396, R407). -/
def State.pagesWith (s : State) (vf own : Nat) : List Nat :=
  pagesBelow s.mem (fun e => ownOf e == own && (s.vf vf).regions.contains (entOA e / 2 ^ 30)) [42, 29, 16]
    (s.vf vf).s2root.toNat 0

/-- A 64 KiB frame as it is sent with its line checks: its bytes, then two bytes for each line whose check fails (R407, R421). -/
def State.pageImage (s : State) (frame : Nat) : List Byte :=
  s.mem.bytes frame 65536 ++
    (((List.range 1024).filter fun i => (s.lineFault (frame + 64 * i)).isSome).flatMap fun i => leBytes 2 i)

/-- The lines of a received image whose checks fail. -/
def imageFails (data : List Byte) : List Nat :=
  let tail := data.drop 65536
  (List.range (tail.length / 2)).map fun i => field tail (2 * i) 2

/-- The source begins to send a page (R407 steps 1 and 2). -/
def State.sendPage (s : State) (vf ipa : Nat) : State :=
  match (s.vf vf).mig, s.pageLeaf vf ipa with
  | some m, some leaf =>
    if !m.source || !m.quiesced || ownOf leaf.2 != 0 || (entOA leaf.2 / 2 ^ 30 |> (s.vf vf).regions.contains) == false then s
    else
      let data := s.pageImage (entOA leaf.2)
      let s := (s.setOwn vf ipa leaf 2).updVf vf fun v =>
        { v with mig := some { m with transit := m.transit ++ [ipa / 65536], asked := m.asked.filter (· != ipa / 65536) } }
      s.send (.page vf (ipa / 65536 * 65536) data)
  | _, _ => s

/-- PAGE_PULL at the source (R408). -/
def execPagePull (vf ipa : Nat) (s : State) : Result := .next (s.sendPage vf ipa)

/-- The next page of the background order (R408). -/
def State.nextPush (s : State) (vf : Nat) : Option Nat :=
  match (s.vf vf).mig with
  | some m =>
    if m.source && m.quiesced && m.transit.length < 64 then
      (s.pagesWith vf 0).foldl (fun best p => match best with
        | none => some p
        | some b => some (min b p)) none
    else none
  | none => none

/-- BACKGROUND_PUSH (R408). -/
def execBackgroundPush (vf : Nat) (s : State) : Result :=
  match s.nextPush vf with
  | some p => .next (s.sendPage vf (p * 65536))
  | none => .next s

/-- The accesses of a page that a migration holds. -/
def onMoved (vf page : Nat) (h : Held) : Bool := h.vf == vf && h.page == page && h.reason == 3

/-- PAGE_TRANSFER at the target: the frame written, a line whose check fails failing here too, OWN 0, acknowledged, and what waits walks again (R407, R408). -/
def execPageTransfer (vf ipa : Nat) (data : List Byte) (s : State) : Result :=
  match (s.vf vf).mig, s.pageLeaf vf ipa with
  | some m, some leaf =>
    let frame := entOA leaf.2
    if m.source || ownOf leaf.2 == 0 || ownOf leaf.2 == 3 || data.length < 65536 ||
        !(s.vf vf).regions.contains (frame / 2 ^ 30) then .next s
    else
      let s := { s with mem := s.mem.writeBytes frame (data.take 65536) }.freshLines ((List.range 1024).map fun i => frame / 64 + i)
      let s := { s with badLines := (imageFails data).foldl (fun l i => insertNat (frame / 64 + i) l) s.badLines }
      let s := (s.setOwn vf ipa leaf 0).updVf vf fun v =>
        { v with mig := some { m with asked := m.asked.filter (· != ipa / 65536) } }
      let s := s.send (.pageAck vf (ipa / 65536 * 65536))
      let done := (s.pagesWith vf 1).isEmpty && (s.pagesWith vf 2).isEmpty
      let s := if done then s.updVf vf fun v => { v with mig := none } else s
      .next (s.wake vf (onMoved vf (ipa / 65536)))
  | _, _ => .next s

/-- The source has nothing left of a virtual function's pages. -/
def State.allMoved (s : State) (vf : Nat) : Bool := (s.pagesWith vf 0).isEmpty && (s.pagesWith vf 2).isEmpty

/-- PAGE_ACK at the source: OWN 1, held requests are redirected, and with the last page the hypervisor is told
(R405, R407, R411). -/
def execPageAck (vf ipa : Nat) (s : State) : Result :=
  match (s.vf vf).mig, s.pageLeaf vf ipa with
  | some m, some leaf =>
    if !m.source || !m.transit.contains (ipa / 65536) then .next s
    else
      let s := (s.setOwn vf ipa leaf 1).updVf vf fun v =>
        { v with mig := some { m with transit := m.transit.filter (· != ipa / 65536) } }
      let s := s.retryInbound (onMoved vf (ipa / 65536))
      .next (if s.allMoved vf then s.send (.migrated vf) else s)
  | _, _ => .next s

/-- MIG_END destroys the source virtual function: what it held here goes, its contexts without a death (R390, R405). -/
def execMigEnd (vf : Nat) (s : State) : Result :=
  hostCommand s (match (s.vf vf).mig with
    | none => none
    | some m =>
      if !m.source || !m.quiesced || !s.allMoved vf then none
      else
        let old := s.vf vf
        let cs := old.clusters
        let s := (s.ctxKeys vf).foldl State.dropContext s
        let (go, stay) := s.inbound.partition fun r => r.vf == vf
        let s := go.foldl (fun (s : State) r => s.send (.reply r.endpt false [])) { s with inbound := stay }
        let s := s.putVf vf { (s.vf vf).bare with mig := none, peers := [] }
        let s := (s.dropVfTlb vf).giveBack (old.regions ++ old.saveRegions)
        some ((s.wipeClusters cs).answer true))

end Sys2Proof.Machine
end

