-- ==== Sys2Proof/Machine/Edges.lean ====
section
/-! DEFINITION. Sys2Proof/Machine/Edges.lean: power, thermal freezes, budgets, row activations, routers, rings, on-chip SRAM, links,
management events, boot and retirement (R10, R19, R24, R312, R341 to R344, R403, R404, R424 to R428, R430 to R432). -/
namespace Sys2Proof.Machine

/-! ### Power and heat (R148, R403, R404, R431) -/

/-- POWERCAP: the budgets of the governors are scaled by an amount the manual does not give (R431; log 13). -/
def execPowercap (watts : Nat) (s : State) : Result :=
  hostCommand s (if watts < 1200 || 2800 < watts then none
    else
      let budget (c : Nat) : Nat := 1 + (Config.freeWord (s.tick + c)).toNat % 65535
      let t := (List.range 32).foldl (fun s c => s.updCluster c fun k => { k with budget := budget c }) s
      some ({ t with watts }.answer true))

/-- THERMAL_FREEZE: the whole device stops in place (R403). -/
def execThermalFreeze (stack : Nat) (s : State) : Result :=
  .next (if s.frozen then s
    else { s with frozen := true, frozenAt := s.refTime }.postErr { kind := 0x0E, unit := stack })

/-- Reference cycles that the freeze has lasted (R73, R430). -/
def State.frozenFor (s : State) : Nat := (s.refTime + 2 ^ 64 - s.frozenAt % 2 ^ 64) % 2 ^ 64

/-- THERMAL_RESUME, after a further `cycles` of the reference oscillator: the clock goes on, and SR.CLOCK and SR.FROZEN grow
by the frozen interval as SR.MREFTIME shows it (R73, R404). -/
def execThermalResume (cycles : Nat) (s : State) : Result :=
  if !s.frozen then .next s
  else
    let s := { s with refTime := (s.refTime + cycles) % 2 ^ 64 }
    let n := s.frozenFor
    let s := { s with
      frozen := false
      vfs := s.vfs.mapAll fun _ v => { v with clock := v.clock + n, frozen := v.frozen + BitVec.ofNat 64 n } }
    .next (s.postErr { kind := 0x0F })

/-! ### Budgets and row activations (R341, R342, R344) -/

/-- Charge the requests that wait at the slices, in arrival order; `done` are the slices that have charged one in this
window, `stay` the requests still waiting. A request dearer than BUDGET is charged when it is the first (R342). -/
def State.chargeWaiting (s : State) : List SliceReq → List Nat → List SliceReq → State
  | [], _, stay => { s with sliceWait := stay }
  | r :: rest, done, stay =>
    let n := s.spent.at r.slice 0 + r.cost
    let held := stay.any fun x => x.slice == r.slice
    let dear := s.sliceBudget r.slice < r.cost && !done.contains r.slice
    if !held && (n ≤ s.sliceBudget r.slice || dear) then
      State.chargeWaiting { s with spent := s.spent.put r.slice n } rest (r.slice :: done) stay
    else s.chargeWaiting rest done (stay ++ [r])

/-- BUDGET_WINDOW: the spent counts start anew, with what exceeded a budget carried over; a changed BUDGET takes effect; and
what waits is charged (R342, R343). -/
def execBudgetWindow (s : State) : Result :=
  let s := { s with spent := s.spent.mapAll fun k n => n - s.sliceBudget k }
  let s := { s with vfs := s.vfs.mapAll fun _ v => { v with budget := v.budgetNext } }
  .next (s.chargeWaiting s.sliceWait [] [])

/-- ROW_THRESHOLD_CROSSING: an activation with which the count stands at THRESH or above (R344). -/
def execRowThresholdCrossing (slice vf row : Nat) (s : State) : Result :=
  .next (s.countRow slice vf row (max s.rowThresh (s.rowCount (slice, row, vf) + 1)))

/-- ACTIVATION_COUNT_RESTART (R344). -/
def execActivationCountRestart (slice row : Nat) (s : State) : Result :=
  .next { s with rows := s.rows.filter fun r => !(r.1.1 == slice && r.1.2.1 == row) }

/-! ### Routers and rings (R312, R358, R377, R426) -/

/-- ROUTER_POWER_DOWN, the decision of a router without traffic: a wake of the same cycle wins (R312). -/
def execRouterPowerDown (router : Nat) (s : State) : Result :=
  .next (if s.routersWoke.find router == some s.cycle then s else { s with routersOff := insertNat router s.routersOff })

/-- ROUTER_WAKE (R312). -/
def execRouterWake (router : Nat) (s : State) : Result :=
  .next { s with routersOff := s.routersOff.filter (· != router), routersWoke := s.routersWoke.put router s.cycle }

/-- RING_RETRY: 0 the page requests of a virtual function, 1 the events of a context, 2 the hypervisor's queue (R358, R377,
R426). -/
def execRingRetry (ring owner : Nat) (s : State) : Result :=
  .next (match ring with
    | 0 => s.writeRequest owner
    | 1 => (State.flushEvents 65 owner s).flushDead (· == owner)
    | _ => State.flushErr 1025 s)

/-! ### On-chip SRAM (R17, R423 to R425)

Arrays are numbered as R17 lists them: register files 0 to 255 and scratchpads 256 to 511 by core, accumulator stores 512 to
543 by cluster, slice caches 544 to 607, L1 data caches 608 to 863 and L1 instruction caches 864 to 1,119 by core. -/

/-- An array, or a good one. -/
def State.sram (s : State) (n : Nat) : Sram := s.srams.at n {}

/-- Change an array. -/
def State.updSram (s : State) (n : Nat) (f : Sram → Sram) : State := { s with srams := s.srams.put n (f (s.sram n)) }

/-- The wrong symbols of a row: those it holds, and those a scrub finds (log 36). -/
def State.wrongSymbols (s : State) (array row : Nat) : List Nat :=
  ((s.sram array).wrong.at row [] ++ Config.softErrors s.tick).eraseDups

/-- The contexts resident on a core, or a cluster. -/
def State.contextsOn (s : State) (cores : List Nat) : List Nat :=
  ((s.crews.filter fun c => cores.contains c.2.core).map fun c => c.2.ctx).eraseDups

/-- A line that a slice cache may hold: the slice owns it, in a region of a virtual function, and keeps no line of a firmware
region (R15). -/
def State.mayCache (s : State) (slice line : Nat) : Bool :=
  (s.vfs.any fun v => v.2.regions.contains (64 * line / 2 ^ 30)) && s.owner (64 * line) == slice

/-- What losing a row of an array does: a register or accumulator row ends the context that owns it, and so does a scratchpad row,
whose data nothing holds a second time; a slice cache row that is dirty leaves its line, one of those the slice owns, with a failing
check, now or when a request first finds the row (R15, R423, R424; log 36). -/
def State.loseRow (s : State) (array : Nat) : State :=
  let rec_ (s : State) (lost : Nat) (addr : DWord) : State := s.postErr { addr, info := .ofNat 64 lost, kind := 0x04, unit := array }
  let cores := if array < 512 then [array % 256]
    else if 512 ≤ array && array < 544 then (List.range 8).map fun i => 8 * (array - 512) + i
    else []
  if !cores.isEmpty then
    let s := rec_ s 1 0
    match pickOf s.tick ((s.contextsOn cores).map some ++ [none]) with
    | some (some key) => s.killContext key 1 Cause.uncorrectable.code 0
    | _ => s
  else if 544 ≤ array && array < 608 && Config.keepCached s.tick then
    let line := (Config.freeWord s.tick).toNat % 2 ^ 55 / 64
    if !s.mayCache (array - 544) line then rec_ s 0 0
    else if Config.racedNew s.tick line then { s with deadLines := insertNat line s.deadLines }
    else rec_ { s with badLines := insertNat line s.badLines } 1 (.ofNat 64 (64 * line))
  else rec_ s 0 0

/-- SCRUB of a row (R424, R425). -/
def execScrub (array row : Nat) (s : State) : Result :=
  let a := s.sram array
  let bad := (s.wrongSymbols array row).filter fun k => some k != a.failed
  let clean (s : State) : State := s.updSram array fun a => { a with wrong := a.wrong.del row }
  if a.failed.isNone then
    if bad.isEmpty then .next s
    else if bad.length = 1 then
      .next ((clean (s.updSram array fun a => { a with corrected := a.corrected + 1 })).postErr
        { kind := 0x01, unit := bad.headD 0 })
    else .next ((clean s).loseRow array)
  else if bad.isEmpty then
    .next (s.updSram array fun a => { a with rebuilt := if a.spareUsed then a.rebuilt else max a.rebuilt (row + 1) })
  else .next ((clean s).loseRow array)

/-- BANK_FAILED: a rebuild into the spare starts; with the spare in use the array stays in erasure mode (R425). -/
def execBankFailed (array bank : Nat) (s : State) : Result :=
  let a := s.sram array
  .next (if a.spareUsed || a.failed.isSome then
      (s.updSram array fun a => { a with erasure := true, failed := if a.failed.isSome then a.failed else some bank, corrected := 0 }).postErr
        { kind := 0x04, unit := bank }
    else
      (s.updSram array fun a => { a with failed := some bank, rebuilt := 0, corrected := 0 }).postErr { kind := 0x02, unit := bank })

/-- REBUILD_DONE: the spare replaces the failed bank (R425). -/
def execRebuildDone (array : Nat) (s : State) : Result :=
  match (s.sram array).failed with
  | none => .next s
  | some bank =>
    .next (if (s.sram array).spareUsed || (s.sram array).erasure then s
      else (s.updSram array fun a => { a with failed := none, spareUsed := true }).postErr { kind := 0x03, unit := bank })

/-! ### Links (R427, R428) -/

/-- Change a link. -/
def State.updLink (s : State) (n : Nat) (f : Link → Link) : State := { s with links := s.links.put n (f (s.link n)) }

/-- A link goes to retraining; a repair that waited is dropped. -/
def State.retrain (s : State) (n : Nat) : State :=
  s.updLink n fun l => { l with retraining := true, replay := false, failed := 0, repair := none }

/-- A lane moves to a spare; with none left the link retrains (R427). -/
def State.moveLane (s : State) (n lane : Nat) : State :=
  if (s.link n).spares = 0 then s.retrain n
  else (s.updLink n fun l => { l with spares := l.spares - 1, moved := l.moved ++ [lane], repair := none }).postErr
    { kind := 0x09, unit := n }

/-- LINK_REPLAY: a flit or beat is replayed; the third failure sends the link to retraining (R427). -/
def execLinkReplay (link : Nat) (ok : Bool) (s : State) : Result :=
  let s := s.updLink link fun l =>
    { l with errors := l.errors + 1, replay := true, failed := if ok then 0 else l.failed + 1 }
  .next (if 3 ≤ (s.link link).failed then s.retrain link else s)

/-- LANE_REPAIR: at once, or after the replay that is outstanding (R427). -/
def execLaneRepair (link lane : Nat) (s : State) : Result :=
  .next (if (s.link link).replay then s.updLink link fun l => { l with repair := some lane } else s.moveLane link lane)

/-- LINK_RETRAIN (R427). -/
def execLinkRetrain (link : Nat) (s : State) : Result := .next (s.retrain link)

/-- RETRAIN_COMPLETE: the requests that the slices held go on; on a failure the link is disabled, they fail with
MEMORY_UNAVAILABLE, and a memory channel is absent from then on (R428). -/
def execRetrainComplete (link : Nat) (ok : Bool) (s : State) : Result :=
  if !(s.link link).retraining then .next s
  else
    let s := s.updLink link fun l => { l with retraining := false, errors := 0, disabled := !ok }
    let s := if ok then s.upChannel (64 + link) else { s.failChannel (64 + link) with absent := insertNat link s.absent }
    .next (s.postErr { kind := 0x0A, unit := link })

/-- LINK_REPLAY_COMPLETE: a repair that waited takes effect (R427). -/
def execLinkReplayComplete (link : Nat) (s : State) : Result :=
  let l := s.link link
  let s := s.updLink link fun l => { l with replay := false, failed := 0 }
  .next (match if l.replay then l.repair else none with
    | some lane => s.moveLane link lane
    | none => s)

/-! ### Management (R10, R19, R386, R430, R432) -/

/-- MANAGEMENT_EVENT: the bit is set, and a halted group of the die's management core goes on (R386, R430). -/
def execManagementEvent (die bit : Nat) (s : State) : Result :=
  if 5 ≤ bit then .next s
  else
    let s := s.mgmtEvent die bit
    .next { s with groups := s.groups.mapAll fun _ g =>
      if g.priv == .h && mgmtDie g.core == die then { g with halted := false } else g }

/-- The image passes the boot ROM's checks (R432). -/
def Image.passes (i : Image) (minVersion : Nat) : Bool :=
  i.magic == 0x43524E31 && i.rsaGood && i.slhGood && minVersion ≤ i.version

/-- Physical cluster k of a die takes the place of logical cluster c, with its cores and memory slices (R10). -/
def State.mapCluster (s : State) (c k : Nat) : State :=
  { s with
    remap := vecMod s.remap c fun _ => k
    remapCores := (List.range 8).foldl (fun v i => vecMod v (8 * c + i) fun _ => 8 * k + i) s.remapCores
    remapSlices := (List.range 2).foldl (fun v i => vecMod v (2 * c + i) fun _ => 2 * k + i) s.remapSlices }

/-- The remap table as the firmware writes it at boot from the fuses: each logical cluster its own physical one, a cluster
that failed its test replaced by the spare, the die's ninth (R10, R432). -/
def State.writeRemap (s : State) : State :=
  let s := (List.range 32).foldl (fun s c => s.mapCluster c (c % 8)) s
  (List.range 4).foldl (fun s die =>
    let f := Config.fuses die % 10
    let s := if 1 ≤ f && f ≤ 8 then s.mapCluster (8 * die + f - 1) 8 else s
    if f = 0 then s else { s with spareUsed := insertNat die s.spareUsed }) s

/-- Boot from the image in flash: the remap table written and the interface open, or the recovery loader (R432). -/
def State.boot (s : State) : State :=
  if s.image.passes s.minVersion then
    { s.writeRemap with dies := s.dies.map fun d => if d.failed then d else { d with mboot := 7 } }
  else { s with dies := vecMod s.dies 0 fun d => { d with mboot := 0x80 } }

/-- POWER_ON_BOOT (R432). -/
def execPowerOnBoot (s : State) : Result := .next (if (vecGet s.dies 0 {}).mboot == 0 then s.boot else s)

/-- RECOVERY_IMAGE: written and booted only if every check passes (R432; log 4). -/
def execRecoveryImage (magic : Word) (version : Nat) (rsaGood slhGood : Bool) (s : State) : Result :=
  let i : Image := { magic, version, rsaGood, slhGood, content := s.tick + 1 }
  .next (if (vecGet s.dies 0 {}).mboot == 0x80 && i.passes s.minVersion then { s with image := i }.boot else s)

/-- No partition that owns a cluster is running: no resident crew of a live context of it, whatever else is queued or saved
(R10 does not say when a partition runs; log 63). -/
def State.clusterIdle (s : State) (cluster : Nat) : Bool :=
  s.vfs.all fun v => !v.2.slices.getLsbD cluster || s.crews.all fun c => ctxVf c.2.ctx != v.1 || !s.ctxLive c.2.ctx

/-- CLUSTER_RETIRED_IN_SERVICE: the die's spare takes the cluster's number, or the slice is no longer exposed (R10). -/
def execClusterRetiredInService (cluster : Nat) (s : State) : Result :=
  let die := cluster / 8
  .next (if 32 ≤ cluster || !s.clusterIdle cluster then s
    else if s.spareUsed.contains die then { s with hidden := insertNat cluster s.hidden }
    else { s.mapCluster cluster 8 with spareUsed := insertNat die s.spareUsed })

/-- The CXL and Ultra Ethernet ports of a die: three of each, the latter numbered from 12 (R16, R381). -/
def diePorts (die : Nat) : List Nat := (List.range 3).map (3 * die + ·) ++ (List.range 2).map (12 + 2 * die + ·)

/-- MANAGEMENT_CORE_FAILURE: the die's resources are unavailable from then on: its clusters with their memory slices, the
channels of its HBM4 stacks, and its CXL and Ultra Ethernet ports (R19). -/
def execManagementCoreFailure (die : Nat) (s : State) : Result :=
  .next { s with
    dies := vecMod s.dies die fun d => { d with failed := true }
    hidden := ((List.range 8).map fun k => 8 * die + k).foldl (fun h c => insertNat c h) s.hidden
    ports := (diePorts die).foldl (fun m p => KeyMap.put m p { up := false, lost := true }) s.ports }

end Sys2Proof.Machine
end

