-- ==== Sys2Proof/Machine/LaneCross.lean ====
section
/-! DEFINITION. Sys2Proof/Machine/LaneCross.lean: the cross-lane forms (R98, R125 to R128). -/
namespace Sys2Proof.Machine

/-- The source lane of SHFL (R125). -/
def shflSource (f : Nat) (l k : Nat) : Option Nat :=
  match f with
  | 0 => some k
  | 1 => if k ≤ l then some (l - k) else none
  | 2 => some (l + k)
  | _ => some (l ^^^ k)

/-- SHFL (R125). -/
def execShfl (d a b : BitVec 7) (f : BitVec 3) (w : Bool) (s : State) : Result :=
  issueRegs { vr := [a.toNat, b.toNat], vw := [d.toNat], trp := w } s fun g e =>
    g.setV d.toNat e.mask fun l =>
      match shflSource f.toNat l.val ((g.vAt b.toNat l).toNat % 128) with
      | some k => if e.mask.getLsbD k then g.vNat a.toNat k else g.vAt a.toNat l
      | none => g.vAt a.toNat l

/-- Op of REDX and SCNX (R126). -/
def redOp (f : Nat) (x y : Word) : Word × Flags :=
  match f with
  | 0 => plain (x + y)
  | 1 => let r := fadd .f32 x.toNat y.toNat; (.ofNat 32 r.1, r.2)
  | 2 => plain (if y.slt x then y else x)
  | 3 => plain (if x.slt y then y else x)
  | 4 => plain (if y.ult x then y else x)
  | 5 => plain (if x.ult y then y else x)
  | 6 => plain (x &&& y)
  | _ => plain (x ||| y)

/-- Id of REDX (R126). -/
def redId (f : Nat) : Word :=
  match f with
  | 0 => 0
  | 1 => 0x80000000
  | 2 => 0x7FFFFFFF
  | 3 => 0x80000000
  | 4 => 0xFFFFFFFF
  | 5 => 0
  | 6 => 0xFFFFFFFF
  | _ => 0

/-- One level of the fixed tree: neighbours combined, flags gathered (R126). -/
def treeLevel (f : Nat) : List Word → List Word × Flags
  | x :: y :: r =>
    let o := redOp f x y
    let t := treeLevel f r
    (o.1 :: t.1, o.2 ||| t.2)
  | xs => (xs, 0)

/-- k levels of the tree. -/
def treeLevels (f : Nat) : Nat → List Word → Flags → List Word × Flags
  | 0, xs, fl => (xs, fl)
  | k + 1, xs, fl =>
    let t := treeLevel f xs
    treeLevels f k t.1 (fl ||| t.2)

/-- REDX's sum over the 128 positions, lanes outside the bundle giving the identity. -/
def redxAll (f : Nat) (g : Group) (a : Nat) (m : Mask) : Word × Flags :=
  let t := treeLevels f 7 ((List.finRange 128).map fun l => if m.getLsbD l.val then g.vAt a l else redId f) 0
  (t.1.headD 0, t.2)

/-- REDX (R126). -/
def execRedx (d a : BitVec 7) (f : BitVec 3) (w : Bool) (s : State) : Result :=
  issueRegs { vr := [a.toNat], vw := [d.toNat], trp := w } s fun g e =>
    let r := redxAll f.toNat g a.toNat e.mask
    { g.setV d.toNat e.mask (fun _ => r.1) with arith := g.arith ||| r.2 }

/-- SCNX's prefixes of the lanes given, in lane order (R127). -/
def scan (f : Nat) (g : Group) (a : Nat) : List (Fin 128) → Option Word → List (Nat × Word) × Flags
  | [], _ => ([], 0)
  | l :: r, none =>
    let t := scan f g a r (some (g.vAt a l))
    ((l.val, g.vAt a l) :: t.1, t.2)
  | l :: r, some acc =>
    let o := redOp f acc (g.vAt a l)
    let t := scan f g a r (some o.1)
    ((l.val, o.1) :: t.1, o.2 ||| t.2)

/-- SCNX (R127). -/
def execScnx (d a : BitVec 7) (f : BitVec 3) (w : Bool) (s : State) : Result :=
  issueRegs { vr := [a.toNat], vw := [d.toNat], trp := w } s fun g e =>
    let r := scan f.toNat g a.toNat (lanesIn e.mask) none
    { g.setV d.toNat e.mask (fun l => (lastFor r.1 l.val).getD 0) with arith := g.arith ||| r.2 }

/-- The vote of a bundle (R128). -/
def voteMask (g : Group) (p : Nat) (m : Mask) : Mask := g.pAt p &&& m

/-- VOTE; A names a lane predicate (R128). -/
def execVote (d a : BitVec 7) (f : BitVec 3) (w : Bool) (s : State) : Result :=
  let regs := if f.toNat = 2 then [d.toNat, d.toNat + 1, d.toNat + 2, d.toNat + 3] else [d.toNat]
  issueRegs { pr := [a.toNat], vw := regs, trp := w } s fun g e =>
    let v := voteMask g a.toNat e.mask
    match f.toNat with
    | 0 => g.setV d.toNat e.mask fun _ => if v = e.mask then 1 else 0
    | 1 => g.setV d.toNat e.mask fun _ => if v = 0 then 0 else 1
    | 2 => (List.range 4).foldl (fun acc j =>
        acc.setV (d.toNat + j) e.mask fun _ => .ofNat 32 (v.toNat / 2 ^ (32 * j))) g
    | _ => g.setV d.toNat e.mask fun _ => .ofNat 32 (lanesIn v).length

end Sys2Proof.Machine
end

