-- ==== Sys2Proof/Machine/Uniform.lean ====
section
/-! DEFINITION. Sys2Proof/Machine/Uniform.lean: the uniform scalar instructions (R129 to R132) and the uniform predicate logic
(R113). They act once for the group (R97). -/
namespace Sys2Proof.Machine

/-- A form of two G sources and one G destination. -/
def uni2 (f : DWord → DWord → DWord) (d a b : BitVec 6) (w : Bool) (s : State) : Result :=
  issueRegs { gr := [a.toNat, b.toNat], gw := [d.toNat], trp := w } s fun g _ =>
    g.setG d.toNat (f (g.gAt a.toNat) (g.gAt b.toNat))

/-- GADD (R129). -/
def execGadd (d a b : BitVec 6) (w : Bool) (s : State) : Result := uni2 (· + ·) d a b w s
/-- GSUB (R129). -/
def execGsub (d a b : BitVec 6) (w : Bool) (s : State) : Result := uni2 (· - ·) d a b w s
/-- GMUL (R129). -/
def execGmul (d a b : BitVec 6) (w : Bool) (s : State) : Result := uni2 (· * ·) d a b w s
/-- GMULH.n (R129). -/
def execGmulhN (d a b : BitVec 6) (w : Bool) (s : State) : Result :=
  uni2 (fun x y => .ofNat 64 (x.toNat * y.toNat / 2 ^ 64)) d a b w s
/-- GMULH.i (R129). -/
def execGmulhI (d a b : BitVec 6) (w : Bool) (s : State) : Result :=
  uni2 (fun x y => .ofInt 64 (x.toInt * y.toInt / 2 ^ 64)) d a b w s
/-- GAND (R129). -/
def execGand (d a b : BitVec 6) (w : Bool) (s : State) : Result := uni2 (· &&& ·) d a b w s
/-- GOR (R129). -/
def execGor (d a b : BitVec 6) (w : Bool) (s : State) : Result := uni2 (· ||| ·) d a b w s
/-- GXOR (R129). -/
def execGxor (d a b : BitVec 6) (w : Bool) (s : State) : Result := uni2 (· ^^^ ·) d a b w s
/-- GANDN (R129). -/
def execGandn (d a b : BitVec 6) (w : Bool) (s : State) : Result := uni2 (fun x y => x &&& ~~~ y) d a b w s
/-- GSHL: 0 from 64 upward (R129). -/
def execGshl (d a b : BitVec 6) (w : Bool) (s : State) : Result :=
  uni2 (fun x y => if 64 ≤ y.toNat then 0 else x <<< y.toNat) d a b w s
/-- GSHR: 0 from 64 upward (R129). -/
def execGshr (d a b : BitVec 6) (w : Bool) (s : State) : Result :=
  uni2 (fun x y => if 64 ≤ y.toNat then 0 else x >>> y.toNat) d a b w s
/-- GSAR: sign fill from 64 upward (R129). -/
def execGsar (d a b : BitVec 6) (w : Bool) (s : State) : Result :=
  uni2 (fun x y => x.sshiftRight (min y.toNat 63)) d a b w s
/-- GMIN.i (R129). -/
def execGminI (d a b : BitVec 6) (w : Bool) (s : State) : Result := uni2 (fun x y => if y.slt x then y else x) d a b w s
/-- GMAX.i (R129). -/
def execGmaxI (d a b : BitVec 6) (w : Bool) (s : State) : Result := uni2 (fun x y => if x.slt y then y else x) d a b w s
/-- GMIN.n (R129). -/
def execGminN (d a b : BitVec 6) (w : Bool) (s : State) : Result := uni2 (fun x y => if y.ult x then y else x) d a b w s
/-- GMAX.n (R129). -/
def execGmaxN (d a b : BitVec 6) (w : Bool) (s : State) : Result := uni2 (fun x y => if x.ult y then y else x) d a b w s

/-- GADDI (R130). -/
def execGaddi (d a : BitVec 6) (i : BitVec 12) (w : Bool) (s : State) : Result :=
  issueRegs { gr := [a.toNat], gw := [d.toNat], trp := w } s fun g e => g.setG d.toNat (g.gAt a.toNat + e.imm i)
/-- GMOVI (R130). -/
def execGmovi (d : BitVec 6) (i : BitVec 18) (w : Bool) (s : State) : Result :=
  issueRegs { gw := [d.toNat], trp := w } s fun g e => g.setG d.toNat (e.imm i)
/-- GCMP (R131). -/
def execGcmp (q : BitVec 4) (a b : BitVec 6) (c : BitVec 4) (w : Bool) (s : State) : Result :=
  issueRegs { gr := [a.toNat, b.toNat], qw := [q.toNat], trp := w } s fun g _ =>
    g.setQ q.toNat (icond c.toNat (g.gAt a.toNat) (g.gAt b.toNat))

/-- A form of two uniform predicates, each inverted by its bit. -/
def qlog2 (f : Bool → Bool → Bool) (q x y : BitVec 4) (n m : Bool) (s : State) : Result :=
  issueRegs { qr := [x.toNat, y.toNat], qw := [q.toNat] } s fun g _ =>
    g.setQ q.toNat (f (g.qAt x.toNat ^^ n) (g.qAt y.toNat ^^ m))

/-- QAND (R113). -/
def execQand (q x y : BitVec 4) (n m : Bool) (s : State) : Result := qlog2 and q x y n m s
/-- QOR (R113). -/
def execQor (q x y : BitVec 4) (n m : Bool) (s : State) : Result := qlog2 or q x y n m s
/-- QXOR (R113). -/
def execQxor (q x y : BitVec 4) (n m : Bool) (s : State) : Result := qlog2 xor q x y n m s
/-- QMOV (R113). -/
def execQmov (q x : BitVec 4) (n : Bool) (s : State) : Result :=
  issueRegs { qr := [x.toNat], qw := [q.toNat] } s fun g _ => g.setQ q.toNat (g.qAt x.toNat ^^ n)
/-- QSET: true when NB = 0 (R113). -/
def execQset (q : BitVec 4) (m : Bool) (s : State) : Result :=
  issueRegs { qw := [q.toNat] } s fun g _ => g.setQ q.toNat (!m)

/-- GMOV (R132). -/
def execGmov (d a : BitVec 6) (w : Bool) (s : State) : Result :=
  issueRegs { gr := [a.toNat], gw := [d.toNat], trp := w } s fun g _ => g.setG d.toNat (g.gAt a.toNat)

/-- GSRD: a special register; SR.LANE, SR.LVL0 and numbers not readable at the level are no instruction (R68). -/
def execGsrd (d : BitVec 6) (n : BitVec 12) (w : Bool) (s : State) : Result :=
  match s.acting with
  | none => .fault .noActor
  | some (_, g, _, e) =>
    let v := s.readSr g e n.toNat
    issue { gw := [d.toNat], trp := w, illegal := v.isNone } s fun gid g ei _ =>
      if srWaits n.toNat && g.lanesBusy then s.block gid ei
      else (s.putGroup gid (g.setG d.toNat (.ofNat 64 (v.getD 0)))).finish gid ei

/-- The lane GLANE reads (R132). -/
def glaneLane (sel : DWord) (m : Mask) : Nat := if sel.getLsbD 7 then lowestLane m else sel.toNat % 128

/-- GLANE: V[B] of one lane, whatever entry holds it; W governs G[A] and that lane's V[B] (R98, R132). -/
def execGlane (d a b : BitVec 6) (w : Bool) (s : State) : Result :=
  issue { gr := [a.toNat], vx := [b.toNat], trp := w } s fun gid g ei e =>
    let n := glaneLane (g.gAt a.toNat) e.mask
    if g.vEmpty b.toNat (laneBit n) then
      (if w then s.takeTrap gid ei { cause := .emptyRead } else s.block gid ei)
    else if g.gEmpty d.toNat then s.block gid ei
    else (s.putGroup gid (g.setG d.toNat ((g.vNat b.toNat n).zeroExtend 64))).finish gid ei

end Sys2Proof.Machine
end

