-- ==== Sys2Proof/Machine/Dispatch.lean ====
section
/-! DEFINITION. Sys2Proof/Machine/Dispatch.lean: one arm per constructor of Instr, each a direct call of its meaning. -/
namespace Sys2Proof.Machine

def exec (i : Instr) (s : State) : Host.Outcome State Fault Refusal :=
  match i with
  | .iadd d a b w => Sys2Proof.Machine.execIadd d a b w s
  | .isub d a b w => Sys2Proof.Machine.execIsub d a b w s
  | .iaddsI32 d a b w => Sys2Proof.Machine.execIaddsI32 d a b w s
  | .isubsI32 d a b w => Sys2Proof.Machine.execIsubsI32 d a b w s
  | .iaddsN32 d a b w => Sys2Proof.Machine.execIaddsN32 d a b w s
  | .isubsN32 d a b w => Sys2Proof.Machine.execIsubsN32 d a b w s
  | .iaddi d a imm w => Sys2Proof.Machine.execIaddi d a imm w s
  | .imul d a b w => Sys2Proof.Machine.execImul d a b w s
  | .imulhI32 d a b w => Sys2Proof.Machine.execImulhI32 d a b w s
  | .imulhN32 d a b w => Sys2Proof.Machine.execImulhN32 d a b w s
  | .imac d a b w => Sys2Proof.Machine.execImac d a b w s
  | .iminI d a b w => Sys2Proof.Machine.execIminI d a b w s
  | .imaxI d a b w => Sys2Proof.Machine.execImaxI d a b w s
  | .iminN d a b w => Sys2Proof.Machine.execIminN d a b w s
  | .imaxN d a b w => Sys2Proof.Machine.execImaxN d a b w s
  | .iabs d a w => Sys2Proof.Machine.execIabs d a w s
  | .idif d a b w => Sys2Proof.Machine.execIdif d a b w s
  | .and d a b w => Sys2Proof.Machine.execAnd d a b w s
  | .or d a b w => Sys2Proof.Machine.execOr d a b w s
  | .xor d a b w => Sys2Proof.Machine.execXor d a b w s
  | .andn d a b w => Sys2Proof.Machine.execAndn d a b w s
  | .orn d a b w => Sys2Proof.Machine.execOrn d a b w s
  | .xnor d a b w => Sys2Proof.Machine.execXnor d a b w s
  | .shlReg d a b w => Sys2Proof.Machine.execShlReg d a b w s
  | .shrReg d a b w => Sys2Proof.Machine.execShrReg d a b w s
  | .sarReg d a b w => Sys2Proof.Machine.execSarReg d a b w s
  | .rolReg d a b w => Sys2Proof.Machine.execRolReg d a b w s
  | .shlImm d a c w => Sys2Proof.Machine.execShlImm d a c w s
  | .shrImm d a c w => Sys2Proof.Machine.execShrImm d a c w s
  | .sarImm d a c w => Sys2Proof.Machine.execSarImm d a c w s
  | .rolImm d a c w => Sys2Proof.Machine.execRolImm d a c w s
  | .popc d a w => Sys2Proof.Machine.execPopc d a w s
  | .clz d a w => Sys2Proof.Machine.execClz d a w s
  | .brev d a w => Sys2Proof.Machine.execBrev d a w s
  | .ffs d a w => Sys2Proof.Machine.execFfs d a w s
  | .bfxN d a b w => Sys2Proof.Machine.execBfxN d a b w s
  | .bfxI d a b w => Sys2Proof.Machine.execBfxI d a b w s
  | .bfi d a b w => Sys2Proof.Machine.execBfi d a b w s
  | .lea d a b sel w => Sys2Proof.Machine.execLea d a b sel w s
  | .movi d imm w => Sys2Proof.Machine.execMovi d imm w s
  | .mov d a w => Sys2Proof.Machine.execMov d a w s
  | .movgLo d g w => Sys2Proof.Machine.execMovgLo d g w s
  | .movgHi d g w => Sys2Proof.Machine.execMovgHi d g w s
  | .mov2 d a w => Sys2Proof.Machine.execMov2 d a w s
  | .srd d sel w => Sys2Proof.Machine.execSrd d sel w s
  | .cmov d a p n w => Sys2Proof.Machine.execCmov d a p n w s
  | .cmovD d a p n w => Sys2Proof.Machine.execCmovD d a p n w s
  | .icmp p a b c w => Sys2Proof.Machine.execIcmp p a b c w s
  | .fcmp p a b c w => Sys2Proof.Machine.execFcmp p a b c w s
  | .pand d a b x y => Sys2Proof.Machine.execPand d a b x y s
  | .por d a b x y => Sys2Proof.Machine.execPor d a b x y s
  | .pxor d a b x y => Sys2Proof.Machine.execPxor d a b x y s
  | .pmov d a x => Sys2Proof.Machine.execPmov d a x s
  | .pset d y => Sys2Proof.Machine.execPset d y s
  | .fadd d a b t w => Sys2Proof.Machine.execFadd d a b t w s
  | .fsub d a b t w => Sys2Proof.Machine.execFsub d a b t w s
  | .fmul d a b t n w => Sys2Proof.Machine.execFmul d a b t n w s
  | .fmac d a b t n w => Sys2Proof.Machine.execFmac d a b t n w s
  | .fmin d a b t w => Sys2Proof.Machine.execFmin d a b t w s
  | .fmax d a b t w => Sys2Proof.Machine.execFmax d a b t w s
  | .frcp d a w => Sys2Proof.Machine.execFrcp d a w s
  | .frsq d a w => Sys2Proof.Machine.execFrsq d a w s
  | .fsqrt d a w => Sys2Proof.Machine.execFsqrt d a w s
  | .fex2 d a w => Sys2Proof.Machine.execFex2 d a w s
  | .flg2 d a w => Sys2Proof.Machine.execFlg2 d a w s
  | .fsinp d a w => Sys2Proof.Machine.execFsinp d a w s
  | .fcosp d a w => Sys2Proof.Machine.execFcosp d a w s
  | .frnd d a t m w => Sys2Proof.Machine.execFrnd d a t m w s
  | .cvt d a c r sel w => Sys2Proof.Machine.execCvt d a c r sel w s
  | .pkn d a b f w => Sys2Proof.Machine.execPkn d a b f w s
  | .upkn d a b f w => Sys2Proof.Machine.execUpkn d a b f w s
  | .pkb d a b f w => Sys2Proof.Machine.execPkb d a b f w s
  | .upkb d a b f w => Sys2Proof.Machine.execUpkb d a b f w s
  | .bscl d a f w => Sys2Proof.Machine.execBscl d a f w s
  | .shfl d a b f w => Sys2Proof.Machine.execShfl d a b f w s
  | .redx d a f w => Sys2Proof.Machine.execRedx d a f w s
  | .scnx d a f w => Sys2Proof.Machine.execScnx d a f w s
  | .vote d a f w => Sys2Proof.Machine.execVote d a f w s
  | .ld d a g z h w => Sys2Proof.Machine.execLd d a g z h w s
  | .st d a g z h w => Sys2Proof.Machine.execSt d a g z h w s
  | .ldf d a g h w => Sys2Proof.Machine.execLdf d a g h w s
  | .ste d a g w => Sys2Proof.Machine.execSte d a g w s
  | .stf d a g w => Sys2Proof.Machine.execStf d a g w s
  | .atom d a g o n w => Sys2Proof.Machine.execAtom d a g o n w s
  | .cpy d a g z t w => Sys2Proof.Machine.execCpy d a g z t w s
  | .pf a g h w => Sys2Proof.Machine.execPf a g h w s
  | .tex d a g m w => Sys2Proof.Machine.execTex d a g m w s
  | .tld d a g m w => Sys2Proof.Machine.execTld d a g m w s
  | .fpost p a g w => Sys2Proof.Machine.execFpost p a g w s
  | .br p n u r o => Sys2Proof.Machine.execBr p n u r o s
  | .brx a r u w => Sys2Proof.Machine.execBrx a r u w s
  | .call p n u r o => Sys2Proof.Machine.execCall p n u r o s
  | .ret => Sys2Proof.Machine.execRet s
  | .exit => Sys2Proof.Machine.execExit s
  | .mfrg d sel => Sys2Proof.Machine.execMfrg d sel s
  | .mtld d sel => Sys2Proof.Machine.execMtld d sel s
  | .mtst a sel => Sys2Proof.Machine.execMtst a sel s
  | .mdsc p n => Sys2Proof.Machine.execMdsc p n s
  | .mend => Sys2Proof.Machine.execMend s
  | .nop => Sys2Proof.Machine.execNop s
  | .gadd d a b w => Sys2Proof.Machine.execGadd d a b w s
  | .gsub d a b w => Sys2Proof.Machine.execGsub d a b w s
  | .gmul d a b w => Sys2Proof.Machine.execGmul d a b w s
  | .gmulhN d a b w => Sys2Proof.Machine.execGmulhN d a b w s
  | .gmulhI d a b w => Sys2Proof.Machine.execGmulhI d a b w s
  | .gand d a b w => Sys2Proof.Machine.execGand d a b w s
  | .gor d a b w => Sys2Proof.Machine.execGor d a b w s
  | .gxor d a b w => Sys2Proof.Machine.execGxor d a b w s
  | .gandn d a b w => Sys2Proof.Machine.execGandn d a b w s
  | .gshl d a b w => Sys2Proof.Machine.execGshl d a b w s
  | .gshr d a b w => Sys2Proof.Machine.execGshr d a b w s
  | .gsar d a b w => Sys2Proof.Machine.execGsar d a b w s
  | .gminI d a b w => Sys2Proof.Machine.execGminI d a b w s
  | .gmaxI d a b w => Sys2Proof.Machine.execGmaxI d a b w s
  | .gminN d a b w => Sys2Proof.Machine.execGminN d a b w s
  | .gmaxN d a b w => Sys2Proof.Machine.execGmaxN d a b w s
  | .gaddi d a imm w => Sys2Proof.Machine.execGaddi d a imm w s
  | .gmovi d imm w => Sys2Proof.Machine.execGmovi d imm w s
  | .gcmp q a b c w => Sys2Proof.Machine.execGcmp q a b c w s
  | .qand q x y n m => Sys2Proof.Machine.execQand q x y n m s
  | .qor q x y n m => Sys2Proof.Machine.execQor q x y n m s
  | .qxor q x y n m => Sys2Proof.Machine.execQxor q x y n m s
  | .qmov q x n => Sys2Proof.Machine.execQmov q x n s
  | .qset q m => Sys2Proof.Machine.execQset q m s
  | .gmov d a w => Sys2Proof.Machine.execGmov d a w s
  | .gsrd d sel w => Sys2Proof.Machine.execGsrd d sel w s
  | .glane d a b w => Sys2Proof.Machine.execGlane d a b w s
  | .gsrw h a l w => Sys2Proof.Machine.execGsrw h a l w s
  | .gbr q n r o => Sys2Proof.Machine.execGbr q n r o s
  | .rep c x y z => Sys2Proof.Machine.execRep c x y z s
  | .lit l => Sys2Proof.Machine.execLit l s
  | .fence sel o e => Sys2Proof.Machine.execFence sel o e s
  | .bara d a q sel w => Sys2Proof.Machine.execBara d a q sel w s
  | .bararr a b x r w => Sys2Proof.Machine.execBararr a b x r w s
  | .barwait a b w => Sys2Proof.Machine.execBarwait a b w s
  | .barref a w => Sys2Proof.Machine.execBarref a w s
  | .bardrop a w => Sys2Proof.Machine.execBardrop a w s
  | .cpyseal w => Sys2Proof.Machine.execCpyseal w s
  | .cpywait n w => Sys2Proof.Machine.execCpywait n w s
  | .mma d a y x w => Sys2Proof.Machine.execMma d a y x w s
  | .mmaz d a y x w => Sys2Proof.Machine.execMmaz d a y x w s
  | .acld d a b sel w => Sys2Proof.Machine.execAcld d a b sel w s
  | .acst d a b sel w => Sys2Proof.Machine.execAcst d a b sel w s
  | .mmwait d a w => Sys2Proof.Machine.execMmwait d a w s
  | .tspawn a w => Sys2Proof.Machine.execTspawn a w s
  | .qpush q a b c w => Sys2Proof.Machine.execQpush q a b c w s
  | .qpop d a w => Sys2Proof.Machine.execQpop d a w s
  | .qtry d a q w => Sys2Proof.Machine.execQtry d a q w s
  | .vgive n w => Sys2Proof.Machine.execVgive n w s
  | .vclaim n w => Sys2Proof.Machine.execVclaim n w s
  | .bowchk d a b w => Sys2Proof.Machine.execBowchk d a b w s
  | .bowset a b w => Sys2Proof.Machine.execBowset a b w s
  | .bowpass w => Sys2Proof.Machine.execBowpass w s
  | .bowidle a b w => Sys2Proof.Machine.execBowidle a b w s
  | .bowwake a b w => Sys2Proof.Machine.execBowwake a b w s
  | .rtopen d a q c w => Sys2Proof.Machine.execRtopen d a q c w s
  | .fseal a b w => Sys2Proof.Machine.execFseal a b w s
  | .rtsync a b w => Sys2Proof.Machine.execRtsync a b w s
  | .rtrel a sel w => Sys2Proof.Machine.execRtrel a sel w s
  | .rtclose d a w => Sys2Proof.Machine.execRtclose d a w s
  | .nred a b o w => Sys2Proof.Machine.execNred a b o w s
  | .nrwait d a q w => Sys2Proof.Machine.execNrwait d a q w s
  | .yield => Sys2Proof.Machine.execYield s
  | .trap c => Sys2Proof.Machine.execTrap c s
  | .eret => Sys2Proof.Machine.execEret s
  | .halt => Sys2Proof.Machine.execHalt s
  | .tlbiVa a b w => Sys2Proof.Machine.execTlbiVa a b w s
  | .tlbiAsid b w => Sys2Proof.Machine.execTlbiAsid b w s
  | .tlbiVf b w => Sys2Proof.Machine.execTlbiVf b w s
  | .tlbiIpa a b w => Sys2Proof.Machine.execTlbiIpa a b w s
  | .tlbiS2 b w => Sys2Proof.Machine.execTlbiS2 b w s
  | .gexit => Sys2Proof.Machine.execGexit s
  | .writeSrTkill v => Sys2Proof.Machine.execWriteSrTkill v s
  | .writeSrArith v => Sys2Proof.Machine.execWriteSrArith v s
  | .writeSrWdog v => Sys2Proof.Machine.execWriteSrWdog v s
  | .writeSrClock v => Sys2Proof.Machine.execWriteSrClock v s
  | .writeSrTfsel v => Sys2Proof.Machine.execWriteSrTfsel v s
  | .writeSrMevent v => Sys2Proof.Machine.execWriteSrMevent v s
  | .fill gid idx ext => Sys2Proof.Machine.execFill gid idx ext s
  | .deferredTrap gid => Sys2Proof.Machine.execDeferredTrap gid s
  | .barrierTimeout gid ent => Sys2Proof.Machine.execBarrierTimeout gid ent s
  | .tagTimeout gid ent => Sys2Proof.Machine.execTagTimeout gid ent s
  | .rtsyncTimeout gid ent => Sys2Proof.Machine.execRtsyncTimeout gid ent s
  | .vclaimTimeout gid ent => Sys2Proof.Machine.execVclaimTimeout gid ent s
  | .linkTimeout gid seq => Sys2Proof.Machine.execLinkTimeout gid seq s
  | .entryDue gid ent => Sys2Proof.Machine.execEntryDue gid ent s
  | .yieldMarkClear gid ent => Sys2Proof.Machine.execYieldMarkClear gid ent s
  | .storeDrain gid => Sys2Proof.Machine.execStoreDrain gid s
  | .barrierArrival gid => Sys2Proof.Machine.execBarrierArrival gid s
  | .copyPerformed core idx => Sys2Proof.Machine.execCopyPerformed core idx s
  | .leaveGrant cluster => Sys2Proof.Machine.execLeaveGrant cluster s
  | .engineTileTurn gid => Sys2Proof.Machine.execEngineTileTurn gid s
  | .engineComplete gid => Sys2Proof.Machine.execEngineComplete gid s
  | .fsealAccept gid => Sys2Proof.Machine.execFsealAccept gid s
  | .frontierView stream unit => Sys2Proof.Machine.execFrontierView stream unit s
  | .fragmentArrival stream idx => Sys2Proof.Machine.execFragmentArrival stream idx s
  | .nredContribution gid => Sys2Proof.Machine.execNredContribution gid s
  | .launchAccept vf => Sys2Proof.Machine.execLaunchAccept vf s
  | .launchPlace vf places => Sys2Proof.Machine.execLaunchPlace vf places s
  | .staggerStart crew => Sys2Proof.Machine.execStaggerStart crew s
  | .taskStart core => Sys2Proof.Machine.execTaskStart core s
  | .taskStealable core idx => Sys2Proof.Machine.execTaskStealable core idx s
  | .taskSteal core => Sys2Proof.Machine.execTaskSteal core s
  | .copyTaskComplete core idx => Sys2Proof.Machine.execCopyTaskComplete core idx s
  | .heatDispatch rset => Sys2Proof.Machine.execHeatDispatch rset s
  | .heatEnd rset task => Sys2Proof.Machine.execHeatEnd rset task s
  | .pageRequest vf => Sys2Proof.Machine.execPageRequest vf s
  | .replyDoorbell vf => Sys2Proof.Machine.execReplyDoorbell vf s
  | .completionTimeout id => Sys2Proof.Machine.execCompletionTimeout id s
  | .linkDown port => Sys2Proof.Machine.execLinkDown port s
  | .linkUp port => Sys2Proof.Machine.execLinkUp port s
  | .linkLostTimeout port => Sys2Proof.Machine.execLinkLostTimeout port s
  | .inboundFabricRequest endpt srcVf vf kind addr data => Sys2Proof.Machine.execInboundFabricRequest endpt srcVf vf kind addr data s
  | .redirect vf window endpt => Sys2Proof.Machine.execRedirect vf window endpt s
  | .qcreate vf ctx launch k => Sys2Proof.Machine.execQcreate vf ctx launch k s
  | .qsubmit vf ctx handle cls v => Sys2Proof.Machine.execQsubmit vf ctx handle cls v s
  | .qdestroy vf ctx handle => Sys2Proof.Machine.execQdestroy vf ctx handle s
  | .createContext vf info => Sys2Proof.Machine.execCreateContext vf info s
  | .attestationReport vf nonce => Sys2Proof.Machine.execAttestationReport vf nonce s
  | .setSlices vf slices => Sys2Proof.Machine.execSetSlices vf slices s
  | .setHpol vf hpol => Sys2Proof.Machine.execSetHpol vf hpol s
  | .setCtxmax vf n => Sys2Proof.Machine.execSetCtxmax vf n s
  | .setBudget vf cluster n => Sys2Proof.Machine.execSetBudget vf cluster n s
  | .assignRegion region owner save => Sys2Proof.Machine.execAssignRegion region owner save s
  | .setS2root vf root => Sys2Proof.Machine.execSetS2root vf root s
  | .setPageRequestRing vf base len => Sys2Proof.Machine.execSetPageRequestRing vf base len s
  | .setReplyRing vf base len => Sys2Proof.Machine.execSetReplyRing vf base len s
  | .setPeers vf peers => Sys2Proof.Machine.execSetPeers vf peers s
  | .setWindow vf window rbase limit endpt rvf asid flags => Sys2Proof.Machine.execSetWindow vf window rbase limit endpt rvf asid flags s
  | .setEventQueue base len => Sys2Proof.Machine.execSetEventQueue base len s
  | .invalidate kind ga gb => Sys2Proof.Machine.execInvalidate kind ga gb s
  | .powercap watts => Sys2Proof.Machine.execPowercap watts s
  | .preempt vf ctx reason => Sys2Proof.Machine.execPreempt vf ctx reason s
  | .resume vf ctx => Sys2Proof.Machine.execResume vf ctx s
  | .saveRetry vf => Sys2Proof.Machine.execSaveRetry vf s
  | .kill vf ctx => Sys2Proof.Machine.execKill vf ctx s
  | .migPrepare vf dies links => Sys2Proof.Machine.execMigPrepare vf dies links s
  | .migStart vf endpt target answers => Sys2Proof.Machine.execMigStart vf endpt target answers s
  | .bundleResume vf => Sys2Proof.Machine.execBundleResume vf s
  | .pagePull vf ipa => Sys2Proof.Machine.execPagePull vf ipa s
  | .pageTransfer vf ipa data => Sys2Proof.Machine.execPageTransfer vf ipa data s
  | .pageAck vf ipa => Sys2Proof.Machine.execPageAck vf ipa s
  | .backgroundPush vf => Sys2Proof.Machine.execBackgroundPush vf s
  | .migEnd vf => Sys2Proof.Machine.execMigEnd vf s
  | .thermalFreeze stack => Sys2Proof.Machine.execThermalFreeze stack s
  | .thermalResume cycles => Sys2Proof.Machine.execThermalResume cycles s
  | .budgetWindow => Sys2Proof.Machine.execBudgetWindow s
  | .rowThresholdCrossing slice vf row => Sys2Proof.Machine.execRowThresholdCrossing slice vf row s
  | .activationCountRestart slice row => Sys2Proof.Machine.execActivationCountRestart slice row s
  | .routerPowerDown router => Sys2Proof.Machine.execRouterPowerDown router s
  | .routerWake router => Sys2Proof.Machine.execRouterWake router s
  | .ringRetry ring owner => Sys2Proof.Machine.execRingRetry ring owner s
  | .scrub array row => Sys2Proof.Machine.execScrub array row s
  | .bankFailed array bank => Sys2Proof.Machine.execBankFailed array bank s
  | .rebuildDone array => Sys2Proof.Machine.execRebuildDone array s
  | .linkReplay link ok => Sys2Proof.Machine.execLinkReplay link ok s
  | .laneRepair link lane => Sys2Proof.Machine.execLaneRepair link lane s
  | .linkRetrain link => Sys2Proof.Machine.execLinkRetrain link s
  | .retrainComplete link ok => Sys2Proof.Machine.execRetrainComplete link ok s
  | .managementEvent die bit => Sys2Proof.Machine.execManagementEvent die bit s
  | .powerOnBoot => Sys2Proof.Machine.execPowerOnBoot s
  | .recoveryImage magic version rsaGood slhGood => Sys2Proof.Machine.execRecoveryImage magic version rsaGood slhGood s
  | .clusterRetiredInService cluster => Sys2Proof.Machine.execClusterRetiredInService cluster s
  | .managementCoreFailure die => Sys2Proof.Machine.execManagementCoreFailure die s
  | .fabricBusy id => Sys2Proof.Machine.execFabricBusy id s
  | .remoteRefusal id => Sys2Proof.Machine.execRemoteRefusal id s
  | .linkReplayComplete link => Sys2Proof.Machine.execLinkReplayComplete link s

end Sys2Proof.Machine
end

