-- ==== Sys2Proof/Machine/Issue.lean ====
section
/-! DEFINITION. Sys2Proof/Machine/Issue.lean: what happens next: fetching and prefixes (R50 to R53, R281), the selection of an entry
(R261, R264 to R267), the work the device does beside the groups, and one step of the whole machine (log 3, log 17). -/
namespace Sys2Proof.Machine

/-! ### Fetch (R281, R354) -/

/-- The end of a fetch: the word with the translation used, a trap at the word (with the line that failed), or a miss. -/
inductive Fetch where
  | word (w : Word) (e : TlbEntry)
  | trap (c : Cause) (line : Option Nat)
  | miss (h : Held) (table : Bool) (off : Nat)
  /-- Its port is down, or its channel retrains (R381, R428). -/
  | wait
  deriving DecidableEq, Repr

/-- Fetch the word at an address for a group. -/
def State.fetch (s : State) (g : Group) (va : Nat) : Fetch :=
  if va % 4 != 0 then .trap .misaligned none
  else if 0x7FE00000000000 ≤ va then .trap .accessViolation none
  else match s.translate g.ctx va .fetch g.priv with
    | .cause c => .trap c none
    | .lost c pa => .trap c (some pa)
    | .miss h table off => .miss h table off
    | .ok e => match s.lineFault (e.pa va) with
      | some c => .trap c (some (e.pa va))
      | none => match (s.farPort (e.pa va)).filter fun p => !s.portOpen p with
        | some p => if (s.ports.at p {}).lost then .trap .memoryUnavailable none else .wait
        | none => .word (.ofNat 32 (Memory.readN s.mem (e.pa va) 4)) e

/-! ### Prefixes (R50 to R53) -/

/-- Legal targets of LIT (R50). -/
def litTarget : Instr → Bool
  | .iaddi _ _ _ _ | .movi _ _ _ | .gaddi _ _ _ _ | .gmovi _ _ _ | .br _ _ _ _ _ | .call _ _ _ _ _ | .gbr _ _ _ _ => true
  | _ => false

/-- Legal targets of REP, and which of their fields D, A and B name a V register (R51). -/
def repTarget : Instr → Option (Bool × Bool × Bool)
  | .iadd _ _ _ _ | .isub _ _ _ _ | .iaddsI32 _ _ _ _ | .isubsI32 _ _ _ _ | .iaddsN32 _ _ _ _ | .isubsN32 _ _ _ _
  | .imul _ _ _ _ | .imulhI32 _ _ _ _ | .imulhN32 _ _ _ _ | .imac _ _ _ _
  | .iminI _ _ _ _ | .imaxI _ _ _ _ | .iminN _ _ _ _ | .imaxN _ _ _ _ | .idif _ _ _ _
  | .and _ _ _ _ | .or _ _ _ _ | .xor _ _ _ _ | .andn _ _ _ _ | .orn _ _ _ _ | .xnor _ _ _ _
  | .shlReg _ _ _ _ | .shrReg _ _ _ _ | .sarReg _ _ _ _ | .rolReg _ _ _ _
  | .bfxN _ _ _ _ | .bfxI _ _ _ _ | .bfi _ _ _ _ | .lea _ _ _ _ _
  | .fadd _ _ _ _ _ | .fsub _ _ _ _ _ | .fmul _ _ _ _ _ _ | .fmac _ _ _ _ _ _ | .fmin _ _ _ _ _ | .fmax _ _ _ _ _
  | .pkn _ _ _ _ _ | .upkn _ _ _ _ _ | .pkb _ _ _ _ _ | .upkb _ _ _ _ _ | .shfl _ _ _ _ _ => some (true, true, true)
  | .iabs _ _ _ | .shlImm _ _ _ _ | .shrImm _ _ _ _ | .sarImm _ _ _ _ | .rolImm _ _ _ _
  | .popc _ _ _ | .clz _ _ _ | .brev _ _ _ | .ffs _ _ _ | .mov _ _ _ | .mov2 _ _ _
  | .frcp _ _ _ | .frsq _ _ _ | .fsqrt _ _ _ | .fex2 _ _ _ | .flg2 _ _ _ | .fsinp _ _ _ | .fcosp _ _ _
  | .frnd _ _ _ _ _ | .bscl _ _ _ _ | .redx _ _ _ _ | .scnx _ _ _ _
  | .iaddi _ _ _ _ | .cmov _ _ _ _ _ | .cmovD _ _ _ _ _ | .cvt _ _ _ _ _ _
  | .ld _ _ _ _ _ _ | .st _ _ _ _ _ _ | .ldf _ _ _ _ _ | .ste _ _ _ _ | .stf _ _ _ _
  | .cpy _ _ _ _ _ _ | .tex _ _ _ _ _ | .tld _ _ _ _ _ => some (true, true, false)
  | .atom _ _ _ _ n _ => some (!n, true, false)
  | .movgLo _ _ _ | .movgHi _ _ _ | .srd _ _ _ | .vote _ _ _ _ | .movi _ _ _ => some (true, false, false)
  | .pf _ _ _ _ => some (false, true, false)
  | _ => none

/-- A stride on a field that names no V register (R51). -/
def strideBad (f : Bool × Bool × Bool) (ds as bs : Nat) : Bool :=
  (ds != 0 && !f.1) || (as != 0 && !f.2.1) || (bs != 0 && !f.2.2)

/-- A target word with its D, A and B fields stepped by k strides, each within seven bits, and whether one passes 127. -/
def steppedWord (w k ds as bs : Nat) : Nat × Bool :=
  let d := fld w 18 7
  let a := fld w 11 7
  let b := fld w 4 7
  let rest := w - d * 2 ^ 18 - a * 2 ^ 11 - b * 2 ^ 4
  (rest + (d + k * ds) % 128 * 2 ^ 18 + (a + k * as) % 128 * 2 ^ 11 + (b + k * bs) % 128 * 2 ^ 4,
    (ds != 0 && 127 < d + k * ds) || (as != 0 && 127 < a + k * as) || (bs != 0 && 127 < b + k * bs))

/-! ### What an entry does next -/

/-- What an entry does next: nothing until a reply; wait for a page; trap at its word or its REP; pass a REP whose
repetitions are done; or run an instruction, with the translation of its fetch, `past` when a stepped field passed 127. -/
inductive Plan where
  | wait
  | hold (h : Held) (va : Nat) (table : Bool) (off : Nat)
  | trap (t : TrapInfo) (line : Option Nat)
  | skip
  | run (i : Instr) (e : Option TlbEntry) (past : Bool)
  deriving DecidableEq, Repr

/-- A trap at the word an entry stands at, which every lane of its bundle has (R369, R372). -/
def Entry.trapHere (e : Entry) (c : Cause) (addr : DWord) (line : Option Nat) : Plan :=
  .trap { cause := c, addr, lane := lowestLane e.mask, pc := some e.wordPc } line

/-- A fetched word under the prefixes latched (R51, R53). A target that is no legal target before any field is stepped traps at
its own word, with SR.TREP 0, at whatever repetition; R51's pseudocode, which tests the stepped word, would name the REP
(the model's choice, log 63). -/
def Entry.planWord (e : Entry) (w : Word) (t : TlbEntry) : Plan :=
  match decode w with
  | .error _ => e.trapHere .illegalOpcode 0 none
  | .ok i =>
    match e.pre.lit, e.pre.rep, i with
    | none, _, .lit l => .run (.lit l) (some t) false
    | none, none, i => .run i (some t) false
    | some _, none, i => if litTarget i then .run i (some t) false else e.trapHere .illegalOpcode 0 none
    | lit, some (cnt, ds, as, bs), i =>
      match repTarget i with
      | none => e.trapHere .illegalOpcode 0 none
      | some f =>
        if lit.isSome && !litTarget i then e.trapHere .illegalOpcode 0 none
        else if strideBad f ds as bs then .trap { cause := .illegalOpcode, pc := some e.pc } none
        else if cnt < e.pre.idx then .skip
        else
          let x := steppedWord w.toNat e.pre.idx ds as bs
          match decode (.ofNat 32 x.1) with
          | .error _ => .trap { cause := .illegalOpcode } none
          | .ok j => .run j (some t) x.2

/-- What an entry that waits in no instruction does next. -/
def State.plan (s : State) (g : Group) (e : Entry) : Plan :=
  if e.held.isSome then .wait
  else match e.fail with
    | some c => e.trapHere c e.wordPc none
    | none => match s.fetch g e.wordPc.toNat with
      | .trap c line => e.trapHere c e.wordPc line
      | .miss h table off => .hold h e.wordPc.toNat table off
      | .wait => .wait
      | .word w t => e.planWord w t

/-- Run an instruction for an entry. A stepped field past 127 leaves the encoding checks and then REG_RANGE (R51, R57). -/
def State.runEntry (s : State) (gid ei : Nat) (i : Instr) (past : Bool) : Result :=
  let s : State := { s with cur := .group gid ei }
  if past then
    let n := (s.groups.at gid {}).blocks
    match exec i (s.updGroup gid fun g => { g with blocks := 0 }) with
    | .next t => .next (t.updGroup gid fun g => { g with blocks := n })
    | r => r
  else exec i s

/-- A result leaves the entry where it stood: it cannot issue, or its wait goes on (R264). -/
def stuck (gid : Nat) (e : Entry) : Result → Bool
  | .next t => match t.groups.find gid with
    | none => false
    | some g => g.entries.any fun x =>
      x.mask == e.mask && x.blocked && x.held == e.held && x.wait == e.wait && x.queued == e.queued
  | _ => false

/-- REP and LIT take no issue slot (R52). -/
def isPrefix : Instr → Bool
  | .rep _ _ _ _ | .lit _ => true
  | _ => false

/-! ### Selection within a group (R264, R265) -/

/-- The entry with a mark that has stood 64 cycles taken as clear (R279). -/
def Entry.unmark (now : Nat) (e : Entry) : Entry := { e with yield := e.yield && now - e.yieldAt < 64 }

/-- The class of an entry in the order of R265: partway through a REP, due, unmarked, marked. -/
def Entry.tier (e : Entry) : Nat := if e.midRep then 0 else if e.due then 1 else if e.yield then 3 else 2

/-- a is selected before b (R265). -/
def Entry.before (a b : Entry) : Bool :=
  a.tier < b.tier || (a.tier == b.tier &&
    (if a.tier = 1 then a.dueAt < b.dueAt || (a.dueAt == b.dueAt && a.pc.toNat < b.pc.toNat) else a.ahead b))

/-- Insert an entry by the order of R265. -/
def insertTurn (x : Nat × Entry) : List (Nat × Entry) → List (Nat × Entry)
  | [] => [x]
  | y :: r => if x.2.before y.2 then x :: y :: r else y :: insertTurn x r

/-- The live entries that wait in no instruction, with their places, in the order of R265. -/
def Group.turns (g : Group) (now : Nat) : List (Nat × Entry) :=
  (g.entries.zipIdx.filter fun x => x.1.wait.isNone && isLive g.entries x.2 x.1).foldl
    (fun acc x => insertTurn (x.2, x.1.unmark now) acc) []

/-- The plan can be carried out now. -/
def State.ready (s : State) (gid : Nat) (x : Nat × Entry) : Plan → Bool
  | .wait => false
  | .hold _ _ _ _ => true
  | .trap _ _ => true
  | .skip => true
  | .run i _ past => !stuck gid x.2 (s.runEntry gid x.1 i past)

/-- No register of the group is empty. -/
def Group.allFull (g : Group) : Group :=
  { g with ve := Vector.replicate 128 0, ge := 0, pe := Vector.replicate 48 0, qe := 0 }

/-- What keeps an entry from issuing is an empty source or destination: without empty registers it could (R52). -/
def State.waitsOnEmpty (s : State) (gid : Nat) (x : Nat × Entry) (p : Plan) : Bool :=
  (s.updGroup gid Group.allFull).ready gid x p

/-- The first entry in the order that can do something. Behind a repetition that waits for anything but an empty register no
other entry issues (R52; where R264 and R265 pass over every blocked entry, the model follows R52, log 62). -/
def State.offer (s : State) (gid : Nat) (g : Group) : List (Nat × Entry) → Option (Nat × Plan)
  | [] => none
  | x :: rest =>
    if s.ready gid x (s.plan g x.2) then some (x.1, s.plan g x.2)
    else if x.2.midRep && !s.waitsOnEmpty gid x (s.plan g x.2) then none
    else s.offer gid g rest

/-- An entry of R264 that is ready; at a prefix, its target decides (n bounds the prefixes). -/
def State.isReady (s : State) (gid : Nat) (x : Nat × Entry) : Nat → Bool
  | 0 => true
  | n + 1 =>
    x.2.wait.isNone && match s.plan (s.groups.at gid {}) x.2 with
      | .hold _ _ _ _ => false
      | .run i t past =>
        s.ready gid x (.run i t past) && (!isPrefix i || match s.runEntry gid x.1 i past with
          | .next u => match (u.groups.at gid {}).entries[x.1]? with
            | some e => u.isReady gid (x.1, e) n
            | none => true
          | _ => true)
      | p => s.ready gid x p

/-- An entry counts toward its turn: it is ready, or spilled (R264, R266). -/
def State.countsUp (s : State) (gid : Nat) (g : Group) (x : Nat × Entry) : Bool :=
  !isLive g.entries x.1 x.2 || s.isReady gid x 3

/-- The entries after entry ei issues: the others' counts and marks, its own count and due state (R266, R279). -/
def State.counted (s : State) (gid : Nat) (g : Group) (ei : Nat) : List Entry :=
  g.entries.zipIdx.map fun x =>
    if x.2 = ei then { x.1 with starve := 0, due := false }
    else if (x.1.unmark s.cycle).yield then { x.1 with yield := false }
    else if s.countsUp gid g (x.2, x.1) && x.1.starve < 1024 then
      { x.1 with starve := x.1.starve + 1, dueAt := if x.1.starve + 1 = 1024 then s.tick else x.1.dueAt }
    else x.1

/-- A lane instruction, by its S bit (R37). -/
def isLane (i : Instr) : Bool := encodeNat i < 2 ^ 31

/-- An issue slot is taken: the group's counts, and the core's round-robin order (R261, R266). -/
def State.account (s : State) (gid ei : Nat) (i : Instr) : State :=
  let es := s.counted gid (s.groups.at gid {}) ei
  (s.updGroup gid fun g => { g with entries := es }).updCore (gid / 96) fun c =>
    if isLane i then { c with laneRR := gid % 96 } else { c with uniRR := gid % 96 }

/-! ### Groups that act -/

/-- The group may issue: its context runs, its crew has been started, it is not halted, and nymgar has not stopped it
(R257, R290, R291, R386, R390). -/
def State.issuing (s : State) (g : Group) : Bool :=
  s.ctxLive g.ctx && (s.crews.find g.crew).any (·.started) && !g.halted && !g.ended && !g.stopped

/-- A step that comes before any further issue of a group: a due mark (R266), or a deferred trap (R382). -/
def Group.urgent (g : Group) (gid : Nat) : Option Instr :=
  if (g.canDefer && g.oldestLost.isSome) || g.handlerLost.isSome then some (.deferredTrap gid)
  else ((g.entries.zipIdx.filter fun x => x.1.starved).foldl (fun (best : Option (Entry × Nat)) x => match best with
    | none => some x
    | some b => if x.1.dueAt < b.1.dueAt || (x.1.dueAt == b.1.dueAt && x.1.pc.toNat < b.1.pc.toNat) then some x else some b)
    none).map fun x => .entryDue gid x.2

/-- What a step can do. -/
inductive Act where
  | entry (gid ei : Nat) (p : Plan)
  | again (gid ei : Nat) (i : Instr)
  | shore (r : Run) (i : Instr)
  | event (i : Instr)
  | ring (ring owner : Nat)
  | save (key : Nat)
  | bundle (vf : Nat)
  deriving DecidableEq, Repr

/-- The instruction an entry waits in. -/
def Group.waitsIn (g : Group) (e : Entry) : Option Instr :=
  e.wait.map fun w => if g.finalExit then .exit else w.instr

/-- Waits of a group that a further test moves. While its context is saved only those go on that the save waits for (R392). -/
def State.againActs (s : State) (gid : Nat) (g : Group) : List Act :=
  if !(s.ctxMoves g.ctx) then []
  else g.entries.zipIdx.filterMap fun x =>
    match g.waitsIn x.1 with
    | none => none
    | some i =>
      if (s.ctxLive g.ctx || completesFirst i) && !stuck gid x.1 (s.runEntry gid x.2 i false) then some (.again gid x.2 i)
      else none

/-- What a group offers now (R261). -/
def State.groupOffer (s : State) (gid : Nat) (g : Group) : Option (Nat × Plan) :=
  if s.issuing g && (g.urgent gid).isNone then s.offer gid g (g.turns s.cycle) else none

/-- Plans that take no issue slot. -/
def Plan.slotless : Plan → Bool
  | .run i _ _ => isPrefix i
  | _ => true

/-- The plan takes a slot of the kind given: lane, or uniform. -/
def Plan.wants (lane : Bool) : Plan → Bool
  | .run i _ _ => !isPrefix i && isLane i == lane
  | _ => false

/-- The first offer of a kind in the round-robin order that starts after a slot. -/
def firstAfter (last : Nat) (lane : Bool) (os : List (Nat × Nat × Plan)) : List Act :=
  let mine := os.filter fun o => o.2.2.wants lane
  match mine.find? fun o => last < o.1 % 96 with
  | some o => [.entry o.1 o.2.1 o.2.2]
  | none => (mine.head?.map fun o => Act.entry o.1 o.2.1 o.2.2).toList

/-- The issues a core can make (R261). -/
def State.coreActs (s : State) (core : Nat) (os : List (Nat × Nat × Plan)) : List Act :=
  let mine := os.filter fun o => o.1 / 96 == core
  let c := s.core core
  (mine.filter fun o => o.2.2.slotless).map (fun o => Act.entry o.1 o.2.1 o.2.2) ++
    firstAfter c.laneRR true mine ++ firstAfter c.uniRR false mine

/-- Every issue the cores can make. -/
def State.issueActs (s : State) : List Act :=
  let os := s.groups.filterMap fun x => (s.groupOffer x.1 x.2).map fun o => (x.1, o.1, o.2)
  ((os.map fun o => o.1 / 96).eraseDups).flatMap fun core => s.coreActs core os

/-! ### Shore units (R240, R243) -/

/-- The word a run stands at. -/
def State.runInstr (s : State) (r : Run) : Instr :=
  let t := s.streams.at r.stream {}
  match (if r.isClose then t.close else t.method)[r.pc]? with
  | none => .mend
  | some w => match decode w with
    | .ok i => i
    | .error _ => .mend

/-- The first run whose context moves (R392). -/
def State.shoreActs (s : State) : List Act :=
  match s.shoreQ.find? fun r => s.ctxMoves (s.streams.at r.stream {}).ctx with
  | none => []
  | some r => [.shore r (s.runInstr r)]

/-! ### Work beside the groups -/

/-- Timeouts of a group's entries (R72). -/
def State.timeoutActs (s : State) (gid : Nat) (g : Group) : List Instr :=
  g.entries.zipIdx.filterMap fun x =>
    match x.1.wait with
    | none => none
    | some w => match w.instr with
      | .barwait _ _ _ => if w.limit ≤ s.cycle - w.start then some (.barrierTimeout gid x.2) else none
      | .ldf _ _ _ _ _ | .ste _ _ _ _ => if w.phase = 7 && w.limit ≤ s.cycle - w.start then some (.tagTimeout gid x.2) else none
      | .rtsync _ _ _ => if w.limit ≤ s.cycle - w.start then some (.rtsyncTimeout gid x.2) else none
      | .vclaim _ _ => if w.limit ≤ s.cycle - w.start then some (.vclaimTimeout gid x.2) else none
      | _ => none

/-- Fills that need nothing from outside (R62). -/
def State.fillActs (s : State) (gid : Nat) (g : Group) : List Instr :=
  g.fills.zipIdx.filterMap fun x =>
    match x.1.tx with
    | none => if s.fillHeld gid x.1 then none else some (.fill gid x.2 [])
    | some id => if s.txs.any fun t => t.id == id && t.cxl then some (.fill gid x.2 []) else none

/-- The engine operation of a group would do something with a turn (R149, R158). -/
def State.turnDue (s : State) (g : Group) : Bool :=
  match g.turnOp with
  | none => false
  | some o =>
    if o.kind == .mma || o.kind == .mmaz then
      let cl := s.cluster (g.core / 8)
      o.waited.isNone || o.farDead || (o.inlets.filterMap fun x => cl.stream x.1 x.2).any (fun t => t.dead) ||
        ((o.tileVals (s.crew g.crew) cl (s.feeds (g.core / 8) o) o.tile (o.blk.k / kStep o.slotA o.slotB)).isSome &&
          !s.sendWaits (g.core / 8) o)
    else !g.rowLogged o.seq

/-- The engine turns that the clusters' round-robin orders allow (R149). -/
def State.turnActs (s : State) : List Instr :=
  let due := s.groups.filter fun x => s.ctxLive x.2.ctx && s.turnDue x.2
  ((due.map fun x => x.2.core / 8).eraseDups).flatMap fun n =>
    let mine := due.filter fun x => x.2.core / 8 == n
    match mine.find? fun x => (s.cluster n).rr < x.1 with
    | some x => [.engineTileTurn x.1]
    | none => (mine.head?.map fun x => Instr.engineTileTurn x.1).toList

/-- The work of one group beside its issue. -/
def State.groupEvents (s : State) (gid : Nat) (g : Group) : List Instr :=
  if !(s.ctxMoves g.ctx) then []
  else
    s.fillActs gid g ++ (if (s.drain gid fun _ => true).isSome then [.storeDrain gid] else []) ++
      (if s.ctxLive g.ctx then
        s.timeoutActs gid g ++
          (g.entries.zipIdx.filterMap fun x => if s.yieldOver x.1 then some (.yieldMarkClear gid x.2) else none) ++
          (match g.turnOp with
            | some o => if s.linkExpired g o then [.linkTimeout gid o.seq] else []
            | none => []) ++
          (match g.engq with
            | o :: _ => if o.status.isSome then [.engineComplete gid] else []
            | [] => [])
      else [])

/-- The work of one core: its copies, its tasks. -/
def State.coreEvents (s : State) (n : Nat) (c : Core) : List Instr :=
  (c.copies.zipIdx.filterMap fun x =>
    if x.1.2.due && (s.movingGroup x.1.2.gid).isSome then some (.copyPerformed n x.2) else none) ++
  (if (s.startHead n).isSome then [.taskStart n] else []) ++
  (c.tasks.zipIdx.filterMap fun x => if s.ageDue x.1 then some (.taskStealable n x.2) else none) ++
  (c.copyTasks.zipIdx.filterMap fun x => if s.copyDue x.1 then some (.copyTaskComplete n x.2) else none)

/-- Tasks that idle cores take (R305). -/
def State.stealEvents (s : State) : List Instr :=
  if s.cores.any fun c => c.2.tasks.any (·.stealable) then
    ((s.vfs.flatMap fun v => v.2.clusters).flatMap fun c => (List.range 8).map fun i => 8 * c + i).filterMap fun n =>
      if (s.steal n).isSome then some (.taskSteal n) else none
  else []

/-- The work of a draw stream: views of its frontier, and fragments that arrive (R234, R235). -/
def State.streamEvents (s : State) (i : Nat) (t : Stream) : List Instr :=
  if !(s.liveStream i) then []
  else
    (((s.vf (ctxVf t.ctx)).shoreUnits.filter fun u => t.views.at u 0 != t.f).map fun u => Instr.frontierView i u) ++
      (List.range t.flight.length).map fun k => Instr.fragmentArrival i k

/-- A page request can be written into the ring (R358). -/
def State.requestDue (s : State) (v : VF) : Bool :=
  (v.requests.any fun q => q.tag.isNone) && (List.range 1024).any (fun t => !(v.requests.any fun q => q.tag == some t)) &&
    !bit (Memory.readN s.mem (v.prq.base.toNat + 32 * v.prq.pos + 0x1C) 4) 31

/-- The work of a virtual function: launches, page requests, and pages pushed in the background (R408). -/
def State.vfEvents (s : State) (n : Nat) (v : VF) : List Instr :=
  (match s.nextLaunchOf n with
    | none => []
    | some (q, _, cls, r) => if v.acceptHeld.any fun a => a.1 == q && a.2.1 == cls && a.2.2.1 == r then [] else [.launchAccept n]) ++
  (match s.choosePlaces n with
    | none => []
    | some ps => [.launchPlace n ps]) ++
  (if s.requestDue v then [.pageRequest n] else []) ++ (if (s.nextPush n).isSome then [.backgroundPush n] else [])

/-- The work of a regatta set's dispatcher (R322). -/
def State.setEvents (s : State) (k : Nat) (t : RSet) : List Instr :=
  if !(s.ctxLive (k / 65536)) then []
  else (if t.eligible.isEmpty then [] else [.heatDispatch k]) ++
    t.tasks.zipIdx.filterMap fun x => if x.1.ended.isSome then some (.heatEnd k x.2) else none

/-- Everything due beside the groups' own issue. -/
def State.work (s : State) : List Instr :=
  (s.groups.flatMap fun (x : Nat × Group) => s.groupEvents x.1 x.2) ++ s.turnActs ++
    (s.cores.flatMap fun (x : Nat × Core) => s.coreEvents x.1 x.2) ++ s.stealEvents ++
    (s.clusters.filterMap fun (x : Nat × Cluster) => if s.leaveReady x.1 then some (Instr.leaveGrant x.1) else none) ++
    (s.streams.flatMap fun (x : Nat × Stream) => s.streamEvents x.1 x.2) ++
    (s.vfs.flatMap fun (x : Nat × VF) => s.vfEvents x.1 x.2) ++
    (s.crews.filterMap fun (x : Nat × Crew) => if s.staggerDue x.1 x.2 then some (Instr.staggerStart x.1) else none) ++
    (s.sets.flatMap fun (x : Nat × RSet) => s.setEvents x.1 x.2)

/-- The same as acts, with the saves and bundles that can finish. -/
def State.eventActs (s : State) : List Act :=
  s.work.map Act.event ++
  (s.contexts.filterMap fun (x : Nat × Context) => if s.saveReady x.1 then some (Act.save x.1) else none) ++
  (s.vfs.filterMap fun (x : Nat × VF) =>
    if s.bundleReady x.1 && x.2.mig.any (fun m => !m.quiesced) then some (Act.bundle x.1) else none) ++
  (s.contexts.filterMap fun (x : Nat × Context) => if s.eventRingReady x.1 x.2 then some (Act.ring 1 x.1) else none) ++
  (s.deadRings.filterMap fun x => if (s.asLive x).eventRingReady x.1 x.2 then some (Act.ring 1 x.1) else none) ++
  (if s.errRingReady then [.ring 2 0] else [])

/-! ### One step -/

/-- The first group step that comes before any further issue. -/
def State.urgentAct (s : State) : Option Act :=
  s.groups.findSome? fun x => if s.issuing x.2 then (x.2.urgent x.1).map Act.event else none

/-- Everything the device can do now. -/
def State.acts (s : State) : List Act :=
  s.shoreActs ++ (s.groups.flatMap fun x => s.againActs x.1 x.2) ++ s.issueActs ++ s.eventActs

/-- The environment's steps that go on while the device is frozen: the thermal signals, events of the management cores, and
requests of peers, which are answered BUSY (R403, R404). -/
def goesOn : Instr → Bool
  | .thermalFreeze _ | .thermalResume _ | .managementEvent _ _ | .fabricBusy _ | .inboundFabricRequest _ _ _ _ _ _ => true
  | _ => false

/-- What the next step does. While the device is frozen, whatever else the environment has in store waits (R403, R404). -/
def State.turn (s : State) : Option Act :=
  if s.frozen then (s.agenda.find? goesOn).map Act.event
  else match s.agenda with
    | i :: _ => some (.event i)
    | [] => match s.urgentAct with
      | some a => some a
      | none => pickOf s.tick s.acts

/-- A trap of the fetch, or of a word under its prefixes. With SR.TPC at the word it lies outside any repetition (R51). -/
def State.trapWord (s : State) (gid ei : Nat) (t : TrapInfo) (line : Option Nat) : State :=
  let g := s.groups.at gid {}
  let s := match line with
    | some pa => s.lineRecord pa (ctxVf g.ctx) (g.ctx % 4096)
    | none => s
  let s := if t.pc.isNone then s else s.updEntry gid ei fun e => { e with pre := { e.pre with rep := none }, resume := if e.pre.words = 0 then e.resume else 0 }
  s.takeTrap gid ei t

/-- An entry's fetch waits for a page (R281). -/
def State.holdFetch (s : State) (gid ei : Nat) (h : Held) (va : Nat) (table : Bool) (off : Nat) : State :=
  let g := s.groups.at gid {}
  (s.requestFor h g.ctx g.core va off table 3).updEntry gid ei fun e => { e with held := some h, blocked := true }

/-- An instruction only takes its place among those that wait at issue (R203, R378): no slot is taken. -/
def onlyQueues (gid ei : Nat) : Result → Bool
  | .next t => match (t.groups.at gid {}).entries[ei]? with
    | some e => e.blocked && e.wait.isNone
    | none => false
  | _ => false

/-- A group's first issue acquires at .dev; with its crew's first, the cluster's stagger count starts (R190, R291, R322). -/
def State.firstIssue (s : State) (gid : Nat) : State :=
  let g := s.groups.at gid {}
  if g.begun then s
  else
    let s := (s.updGroup gid fun g => { g with begun := true }).acquire g.core 4
    if (s.crew g.crew).begun then s
    else (s.updCrew g.crew fun c => { c with begun := true }).updCluster (g.core / 8) fun c => { c with lastStart := some s.cycle }

/-- The state in which an entry's instruction runs: its translation held, its slot accounted for. -/
def State.fetched (s : State) (gid ei : Nat) (i : Instr) (t : Option TlbEntry) : State :=
  let s' := match t with
    | some e => s.holdTlb e
    | none => s
  if isPrefix i || onlyQueues gid ei (s'.runEntry gid ei i false) then s'
  else (s'.firstIssue gid).account gid ei i

/-- Carry out an entry's plan. -/
def State.doPlan (s : State) (gid ei : Nat) : Plan → Result
  | .wait => .next s
  | .hold h va table off => .next (s.holdFetch gid ei h va table off)
  | .trap t line => .next (s.trapWord gid ei t line)
  | .skip => .next (s.finish gid ei)
  | .run i t past => (s.fetched gid ei i t).runEntry gid ei i past

/-- Carry out an act. -/
def State.perform (s : State) : Act → Result
  | .entry gid ei p => s.doPlan gid ei p
  | .again gid ei i => s.runEntry gid ei i false
  | .shore r i => exec i { s with cur := .shore, shoreQ := r :: s.shoreQ.erase r }
  | .event i => exec i { s with cur := .none, agenda := if s.frozen then s.agenda.eraseP goesOn else s.agenda.tail }
  | .ring ring owner => execRingRetry ring owner { s with cur := .none }
  | .save key => .next (s.finishSave key)
  | .bundle vf => .next (s.sendBundle vf)

/-- Time passes (R20, R73, R426; log 2). -/
def State.pass (s : State) : State :=
  let n := if s.frozen then 0 else Config.cycles s.tick
  { s with
    cur := .none
    tick := s.tick + 1
    cycle := s.cycle + n
    refTime := (s.refTime + Config.refCycles s.tick) % 2 ^ 64
    vfs := s.vfs.mapAll fun _ v => { v with clock := v.clock + n } }.countLinks n

/-- The end of a step. -/
def endStep : Result → Result
  | .next s => .next s.pass
  | r => r

/-- One step of the machine. -/
def State.advance (s : State) : Result :=
  match s.turn with
  | none => .next s.pass
  | some a => endStep (s.perform a)

/-! ### A machine about to run one word (log 43) -/

/-- Virtual address, equal to the intermediate and physical one, of the word. -/
def wordHome : Nat := 0x40100000

/-- The tables that map the block of 512 MiB at 1 GiB to itself, in both stages, and the word. -/
def placeWord (m : Memory) (w : Nat) : Memory :=
  ((((m.writeN 0x10000 8 0x20002).writeN 0x20010 8 0x4000001D).writeN 0x40010000 8 0x40020002).writeN 0x40020010 8
    0x4000003D).writeN wordHome 4 w

/-- The launch parameters of its crew: one group of sixteen blocks with a handler. -/
def wordParams : Params :=
  { entry := 0x40100000, handler := 0x40200000, stack := 0x41000000, blocks := 16, scratch := 65536, wdog := 0x4000000 }

/-- The group that runs it, at level S. -/
def wordGroup : Group := { priv := .s, blocks := 16, entries := [{ pc := 0x40100000, mask := allLanes }] }

/-- The virtual function and context it runs in. -/
def State.withTenant (s : State) (w : Nat) : State :=
  { s with
    mem := placeWord s.mem w
    fwRegions := [0]
    vfs := KeyMap.put s.vfs 0 { slices := 1, s2root := 0x10000, regions := [1] }
    contexts := KeyMap.put s.contexts 0 { s1root := 0x40010000, asid := 1 } }

/-- The word on a Shore unit: a method opcode (R54), as the program of an open stream. -/
def State.withMethod (s : State) (w : Nat) : State :=
  { s.withTenant w with
    streams := KeyMap.put s.streams 0 { live := true, method := [.ofNat 32 w] }
    shoreQ := [{}], groups := [], agenda := [], cur := .none, frozen := false }

/-- The word in a group. -/
def State.withGroup (s : State) (w : Nat) : State :=
  { s.withTenant w with
    crews := KeyMap.put s.crews 0 { groups := [0], params := wordParams }
    launches := KeyMap.put s.launches 0 { ctx := 0, params := wordParams, placed := 1, state := 2 }
    groups := [(0, wordGroup)], shoreQ := [], agenda := [], cur := .none, frozen := false }

/-- A machine whose next step runs the word. -/
def State.withWord (s : State) (w : Nat) : State :=
  if 0x38 ≤ w / 2 ^ 25 && w / 2 ^ 25 ≤ 0x3C then s.withMethod w else s.withGroup w

end Sys2Proof.Machine
end

