-- ==== Sys2Proof/Safety.lean ====
section
/-! DEFINITION. Sys2Proof/Safety.lean: what counts as a safe run: the machine does not stop, and its memory keeps the one form in
which equal memories are equal data (log 1). -/
namespace Sys2Proof.Safety

open Sys2Proof.Machine

/-- A step that answers a next state. -/
def Goes (s : State) : Prop := ∃ t, step s = .next t

/-- A run of n steps. -/
def Run : Nat → State → State → Prop
  | 0, s, t => t = s
  | n + 1, s, t => ∃ m, step s = .next m ∧ Run n m t

/-- Every step of every run goes on. -/
def NeverStops (s : State) : Prop := ∀ n t, Run n s t → Goes t

end Sys2Proof.Safety
end

