-- ==== Sys2Proof/Certificates/Slice0/Obligations.lean ====
section
/-! DEFINITION. Sys2Proof/Certificates/Slice0/Obligations.lean: the statements for the provers. `Claims` holds the words the
statements are made of. Every statement about an instruction says that it answers a next state, and which. -/
namespace Sys2Proof.Claims
open Sys2Proof.Machine

/-! ### Words the statements are made of -/

/-- Entry `ei` of group `gid` acts: the group is `g`, the entry `e`. -/
structure Acts (s : State) (gid ei : Nat) (g : Group) (e : Entry) : Prop where
  cur : s.cur = .group gid ei
  group : KeyMap.find s.groups gid = some g
  entry : g.entries[ei]? = some e

/-- V registers the group has (R39) and that are full in the bundle (R63, R64). -/
def VReady (g : Group) (m : Mask) (rs : List Nat) : Prop :=
  ∀ r ∈ rs, r < 8 * g.blocks ∧ r < 128 ∧ g.vEmpty r m = false

/-- G registers that are full. -/
def GReady (g : Group) (rs : List Nat) : Prop := ∀ r ∈ rs, g.gEmpty r = false

/-- P registers the machine has (R59) and that are full in the bundle. -/
def PReady (g : Group) (m : Mask) (rs : List Nat) : Prop := ∀ r ∈ rs, r < 48 ∧ g.pEmpty r m = false

/-- Q registers that are full. -/
def QReady (g : Group) (rs : List Nat) : Prop := ∀ r ∈ rs, g.qEmpty r = false

/-- The frontier after entry `ei` moves past its instruction (R51, R267). -/
def moved (g : Group) (ei : Nat) : List Entry := mergeAll (setAt g.entries ei Entry.advance)

/-- The instruction completes and only the acting group changes, to `g'`, with the frontier moved on: memory, every other
group, and every register and unit of the device outside the group are as before. -/
def Completes (i : Instr) (s : State) (gid ei : Nat) (g g' : Group) : Prop :=
  exec i s = .next (s.putGroup gid g') ∧ g'.entries = moved g ei

/-- A flag is raised for the group by the lanes of the bundle (R69). -/
def Raises (g g' : Group) (m : Mask) (fl : Fin 128 → Flags) : Prop :=
  ∀ k, g'.arith.getLsbD k = true ↔ g.arith.getLsbD k = true ∨ ∃ l : Fin 128, m.getLsbD l.val = true ∧ (fl l).getLsbD k = true

/-- V registers after an instruction: V[r] of a bundle lane for each destination, everything else as before. -/
def WritesV (g g' : Group) (m : Mask) (ds : List Nat) (val : Nat → Fin 128 → Word) : Prop :=
  ∀ (r : Nat) (l : Fin 128), g'.vAt r l = if r ∈ ds ∧ m.getLsbD l.val = true then val r l else g.vAt r l

/-- G registers after an instruction that writes G[d]. -/
def WritesG (g g' : Group) (d : Nat) (x : DWord) : Prop := ∀ r, g'.gAt r = if r = d then x else g.gAt r

/-- Lane predicates after an instruction that writes P[d]; a write to P0 is discarded (R60). -/
def WritesP (g g' : Group) (m : Mask) (d : Nat) (val : Fin 128 → Bool) : Prop :=
  ∀ (r : Nat) (l : Fin 128), (g'.pAt r).getLsbD l.val =
    if r = d ∧ d ≠ 0 ∧ m.getLsbD l.val = true then val l else (g.pAt r).getLsbD l.val

/-- Uniform predicates after an instruction that writes Q[d]; a write to Q0 is discarded (R60). -/
def WritesQ (g g' : Group) (d : Nat) (x : Bool) : Prop :=
  ∀ r, r < 16 → g'.qAt r = if r = d ∧ d ≠ 0 then x else g.qAt r

/-- A lane form from V registers to one V register: its value and its flags from a lane's sources. -/
def LaneForm (i : Instr) (srcs : List Nat) (d : Nat) (val : Entry → (Nat → Word) → Word) (fl : (Nat → Word) → Flags) : Prop :=
  ∀ s gid ei g e, Acts s gid ei g e → VReady g e.mask (d :: srcs) →
    ∃ g', Completes i s gid ei g g' ∧ WritesV g g' e.mask [d] (fun _ l => val e fun r => g.vAt r l) ∧
      Raises g g' e.mask (fun l => fl fun r => g.vAt r l) ∧
      { g' with v := g.v, arith := g.arith, entries := g.entries } = g

/-- A lane form that raises no flag. -/
def LaneValue (i : Instr) (srcs : List Nat) (d : Nat) (val : (Nat → Word) → Word) : Prop :=
  LaneForm i srcs d (fun _ => val) fun _ => 0

/-- A lane form of two sources. -/
def Lane2 (i : BitVec 7 → BitVec 7 → BitVec 7 → Bool → Instr) (f : Word → Word → Word) : Prop :=
  ∀ d a b w, LaneValue (i d a b w) [a.toNat, b.toNat] d.toNat fun x => f (x a.toNat) (x b.toNat)

/-- A lane form of two sources that saturates: the exact result, clamped to a range, with SAT outside it (R100). -/
def LaneSat (i : BitVec 7 → BitVec 7 → BitVec 7 → Bool → Instr) (lo hi : Int) (f : Word → Word → Int) : Prop :=
  ∀ d a b w, LaneForm (i d a b w) [a.toNat, b.toNat] d.toNat
    (fun _ x => .ofInt 32 (max lo (min hi (f (x a.toNat) (x b.toNat)))))
    fun x => if lo ≤ f (x a.toNat) (x b.toNat) ∧ f (x a.toNat) (x b.toNat) ≤ hi then 0 else flagSAT

/-- A lane form of one source. -/
def Lane1 (i : BitVec 7 → BitVec 7 → Bool → Instr) (f : Word → Word) : Prop :=
  ∀ d a w, LaneValue (i d a w) [a.toNat] d.toNat fun x => f (x a.toNat)

/-- A lane form of one source and an immediate count. -/
def LaneCount (i : BitVec 7 → BitVec 7 → BitVec 5 → Bool → Instr) (f : Word → Nat → Word) : Prop :=
  ∀ d a c w, LaneValue (i d a c w) [a.toNat] d.toNat fun x => f (x a.toNat) c.toNat

/-- A lane form that writes one lane predicate. -/
def LaneTest (i : Instr) (vs ps : List Nat) (d : Nat) (val : Group → Fin 128 → Bool) : Prop :=
  ∀ s gid ei g e, Acts s gid ei g e → VReady g e.mask vs → PReady g e.mask (d :: ps) →
    ∃ g', Completes i s gid ei g g' ∧ WritesP g g' e.mask d (val g) ∧ { g' with p := g.p, entries := g.entries } = g

/-- A lane form with several destinations: values and flags from the group before it; the random state as `rng` says. -/
def LaneMulti (i : Instr) (vs ps gs ds : List Nat) (ok : State → Group → Entry → Prop)
    (val : State → Group → Entry → Nat → Fin 128 → Word) (fl : State → Group → Fin 128 → Flags)
    (rng : State → Group → Fin 128 → Word) : Prop :=
  ∀ s gid ei g e, Acts s gid ei g e → VReady g e.mask (ds ++ vs) → PReady g e.mask ps → GReady g gs → ok s g e →
    ∃ g', Completes i s gid ei g g' ∧ WritesV g g' e.mask ds (val s g e) ∧ Raises g g' e.mask (fl s g) ∧
      (∀ l : Fin 128, g'.rng[l] = if e.mask.getLsbD l.val = true then rng s g l else g.rng[l]) ∧
      { g' with v := g.v, arith := g.arith, rng := g.rng, entries := g.entries } = g

/-- A lane form with several destinations that raises no flag and draws no random word. -/
def LaneMove (i : Instr) (vs ps gs ds : List Nat) (ok : State → Group → Entry → Prop)
    (val : State → Group → Entry → Nat → Fin 128 → Word) : Prop :=
  LaneMulti i vs ps gs ds ok val (fun _ _ _ => 0) fun _ g l => g.rng[l]

/-- An immediate field of 32-bit lane forms, widened by a LIT (R50). -/
def laneImmediate {w : Nat} (e : Entry) (i : BitVec w) : Word :=
  match e.pre.lit with
  | none => i.signExtend 32
  | some l => (l ++ i).truncate 32

/-- An immediate field of uniform forms, widened by a LIT and sign-extended (R50). -/
def uniImmediate {w : Nat} (e : Entry) (i : BitVec w) : DWord :=
  match e.pre.lit with
  | none => i.signExtend 64
  | some l => (l ++ i).signExtend 64

/-- The 64-bit value of a pair of a lane. -/
def pairOf (g : Group) (r : Nat) (l : Fin 128) : Nat := (g.vAt r l).toNat + 2 ^ 32 * (g.vAt (r + 1) l).toNat

/-- A floating form: f32 in one register, f64 in pairs, f16 and bf16 in each half (R41, R45, R114). -/
def FloatForm (i : BitVec 2 → Bool → Instr) (d : Nat) (srcs : List Nat) (f : Fmt → List Nat → Nat × Flags) : Prop :=
  ∀ w,
    LaneMulti (i 0 w) srcs [] [] [d] (fun _ _ _ => True)
      (fun _ g _ _ l => .ofNat 32 (f .f32 (srcs.map fun r => (g.vAt r l).toNat)).1)
      (fun _ g l => (f .f32 (srcs.map fun r => (g.vAt r l).toNat)).2) (fun _ g l => g.rng[l]) ∧
    LaneMulti (i 1 w) (srcs ++ srcs.map (· + 1)) [] [] [d, d + 1] (fun _ _ _ => True)
      (fun _ g _ r l => .ofNat 32 ((f .f64 (srcs.map fun r => pairOf g r l)).1 / (if r = d then 1 else 2 ^ 32)))
      (fun _ g l => (f .f64 (srcs.map fun r => pairOf g r l)).2) (fun _ g l => g.rng[l]) ∧
    (∀ t : BitVec 2, t = 2 ∨ t = 3 →
      LaneMulti (i t w) srcs [] [] [d] (fun _ _ _ => True)
        (fun _ g _ _ l =>
          let fm : Fmt := if t = 2 then .f16 else .bf16
          .ofNat 32 ((f fm (srcs.map fun r => (g.vAt r l).toNat % 65536)).1 +
            65536 * (f fm (srcs.map fun r => (g.vAt r l).toNat / 65536)).1))
        (fun _ g l =>
          let fm : Fmt := if t = 2 then .f16 else .bf16
          (f fm (srcs.map fun r => (g.vAt r l).toNat % 65536)).2 ||| (f fm (srcs.map fun r => (g.vAt r l).toNat / 65536)).2)
        (fun _ g l => g.rng[l]))

/-- The words of a form with the fields D, A and B, its opcode and its F (R37, R41). -/
def LaneWords (op f : Nat) (i : BitVec 7 → BitVec 7 → BitVec 7 → Bool → Instr) : Prop :=
  ∀ d a b w, decode (.ofNat 32 (op * 2 ^ 25 + d.toNat * 2 ^ 18 + a.toNat * 2 ^ 11 + b.toNat * 2 ^ 4 + f * 2 + w.toNat)) =
    .ok (i d a b w)

/-- A word of the opcode whose fields satisfy a test is no instruction: it traps ILLEGAL_OPCODE (R57). -/
def NoWords (op : Nat) (test : (f b : Nat) → Prop) : Prop :=
  ∀ x : Word, x.toNat / 2 ^ 25 = op → test (x.toNat / 2 % 8) (x.toNat / 2 ^ 4 % 128) → ∃ r, decode x = .error r

/-- A uniform form from G registers to one G register. -/
def UniForm (i : Instr) (srcs : List Nat) (d : Nat) (val : Entry → (Nat → DWord) → DWord) : Prop :=
  ∀ s gid ei g e, Acts s gid ei g e → GReady g (d :: srcs) →
    ∃ g', Completes i s gid ei g g' ∧ WritesG g g' d (val e g.gAt) ∧ { g' with g := g.g, entries := g.entries } = g

/-- A uniform form of two sources. -/
def Uni2 (i : BitVec 6 → BitVec 6 → BitVec 6 → Bool → Instr) (f : DWord → DWord → DWord) : Prop :=
  ∀ d a b w, UniForm (i d a b w) [a.toNat, b.toNat] d.toNat fun _ x => f (x a.toNat) (x b.toNat)

/-- A uniform form that writes one uniform predicate. -/
def UniTest (i : Instr) (gs qs : List Nat) (d : Nat) (val : Group → Bool) : Prop :=
  ∀ s gid ei g e, Acts s gid ei g e → GReady g gs → QReady g (d :: qs) →
    ∃ g', Completes i s gid ei g g' ∧ WritesQ g g' d (val g) ∧ { g' with q := g.q, entries := g.entries } = g

end Sys2Proof.Claims

open Sys2Proof Sys2Proof.Machine Sys2Proof.Claims

/-! ### Lane arithmetic -/

/-- R100 to R103: the integer sums, products, minima, maxima and differences, each with its frame. IMAC reads its destination;
an immediate is widened by a LIT (R50, R101). Each form's opcode and F, and the words that are none of them. -/
def Obligations.LaneIntegerArithmetic : Prop :=
  Lane2 .iadd (fun x y => x + y) ∧ Lane2 .isub (fun x y => x - y) ∧
  LaneSat .iaddsI32 (-2147483648) 2147483647 (fun x y => x.toInt + y.toInt) ∧
  LaneSat .isubsI32 (-2147483648) 2147483647 (fun x y => x.toInt - y.toInt) ∧
  LaneSat .iaddsN32 0 4294967295 (fun x y => (x.toNat : Int) + y.toNat) ∧
  LaneSat .isubsN32 0 4294967295 (fun x y => (x.toNat : Int) - y.toNat) ∧
  (∀ d a i w, LaneForm (.iaddi d a i w) [a.toNat] d.toNat
    (fun e x => x a.toNat + match e.pre.lit with
      | none => i.signExtend 32
      | some l => (l ++ i).truncate 32) fun _ => 0) ∧
  Lane2 .imul (fun x y => x * y) ∧
  Lane2 .imulhI32 (fun x y => .ofInt 32 (x.toInt * y.toInt / 2 ^ 32)) ∧
  Lane2 .imulhN32 (fun x y => .ofNat 32 (x.toNat * y.toNat / 2 ^ 32)) ∧
  (∀ d a b w, LaneValue (.imac d a b w) [a.toNat, b.toNat] d.toNat
    fun x => x a.toNat * x b.toNat + x d.toNat) ∧
  Lane2 .iminI (fun x y => .ofInt 32 (min x.toInt y.toInt)) ∧ Lane2 .imaxI (fun x y => .ofInt 32 (max x.toInt y.toInt)) ∧
  Lane2 .iminN (fun x y => .ofNat 32 (min x.toNat y.toNat)) ∧ Lane2 .imaxN (fun x y => .ofNat 32 (max x.toNat y.toNat)) ∧
  (∀ d a w, LaneForm (.iabs d a w) [a.toNat] d.toNat (fun _ x => .ofInt 32 (min 2147483647 |(x a.toNat).toInt|))
    fun x => if x a.toNat = 0x80000000 then flagSAT else 0) ∧
  Lane2 .idif (fun x y => .ofInt 32 |x.toInt - y.toInt|) ∧
  LaneWords 1 0 .iadd ∧ LaneWords 1 1 .isub ∧ LaneWords 1 2 .iaddsI32 ∧ LaneWords 1 3 .isubsI32 ∧ LaneWords 1 4 .iaddsN32 ∧
  LaneWords 1 5 .isubsN32 ∧ NoWords 1 (fun f _ => 6 ≤ f) ∧
  (∀ (d a : BitVec 7) (i : BitVec 10) w,
    decode (.ofNat 32 (2 * 2 ^ 25 + d.toNat * 2 ^ 18 + a.toNat * 2 ^ 11 + i.toNat * 2 + w.toNat)) = .ok (.iaddi d a i w)) ∧
  LaneWords 3 0 .imul ∧ LaneWords 3 1 .imulhI32 ∧ LaneWords 3 2 .imulhN32 ∧ LaneWords 3 3 .imac ∧ NoWords 3 (fun f _ => 4 ≤ f) ∧
  LaneWords 4 0 .iminI ∧ LaneWords 4 1 .imaxI ∧ LaneWords 4 2 .iminN ∧ LaneWords 4 3 .imaxN ∧ LaneWords 4 5 .idif ∧
  (∀ (d a : BitVec 7) w, decode (.ofNat 32 (4 * 2 ^ 25 + d.toNat * 2 ^ 18 + a.toNat * 2 ^ 11 + 4 * 2 + w.toNat)) =
    .ok (.iabs d a w)) ∧
  NoWords 4 (fun f b => 6 ≤ f ∨ (f = 4 ∧ b ≠ 0))

/-- R104, R105: bitwise logic; shifts by a register or an immediate count, 32 and more filling with 0 or the sign, rotation by
the count modulo 32. Each form's opcode and F, and the words that are none of them. -/
def Obligations.LaneLogicAndShifts : Prop :=
  Lane2 .and (fun x y => x &&& y) ∧ Lane2 .or (fun x y => x ||| y) ∧ Lane2 .xor (fun x y => x ^^^ y) ∧
  Lane2 .andn (fun x y => x &&& ~~~ y) ∧ Lane2 .orn (fun x y => x ||| ~~~ y) ∧ Lane2 .xnor (fun x y => ~~~ (x ^^^ y)) ∧
  Lane2 .shlReg (fun x y => .ofNat 32 (x.toNat * 2 ^ y.toNat)) ∧
  Lane2 .shrReg (fun x y => .ofNat 32 (x.toNat / 2 ^ y.toNat)) ∧
  Lane2 .sarReg (fun x y => .ofInt 32 (x.toInt / 2 ^ y.toNat)) ∧
  Lane2 .rolReg (fun x y => x.rotateLeft (y.toNat % 32)) ∧
  LaneCount .shlImm (fun x c => .ofNat 32 (x.toNat * 2 ^ c)) ∧ LaneCount .shrImm (fun x c => .ofNat 32 (x.toNat / 2 ^ c)) ∧
  LaneCount .sarImm (fun x c => .ofInt 32 (x.toInt / 2 ^ c)) ∧ LaneCount .rolImm (fun x c => x.rotateLeft c) ∧
  LaneWords 5 0 .and ∧ LaneWords 5 1 .or ∧ LaneWords 5 2 .xor ∧ LaneWords 5 3 .andn ∧ LaneWords 5 4 .orn ∧ LaneWords 5 5 .xnor ∧
  NoWords 5 (fun f _ => 6 ≤ f) ∧
  LaneWords 6 0 .shlReg ∧ LaneWords 6 1 .shrReg ∧ LaneWords 6 2 .sarReg ∧ LaneWords 6 3 .rolReg ∧
  (let counts := fun (f : Nat) (i : BitVec 7 → BitVec 7 → BitVec 5 → Bool → Instr) => ∀ (d a : BitVec 7) (c : BitVec 5) w,
     decode (.ofNat 32 (6 * 2 ^ 25 + d.toNat * 2 ^ 18 + a.toNat * 2 ^ 11 + c.toNat * 2 ^ 4 + f * 2 + w.toNat)) = .ok (i d a c w)
   counts 4 .shlImm ∧ counts 5 .shrImm ∧ counts 6 .sarImm ∧ counts 7 .rolImm) ∧
  NoWords 6 (fun f b => 4 ≤ f ∧ 32 ≤ b)

/-- R106, R107: counts, reversal, fields of bits said bit by bit, and LEA. Each form's opcode and F, and the words that are none
of them. -/
def Obligations.LaneBitFields : Prop :=
  Lane1 .popc (fun x => .ofNat 32 ((List.range 32).countP fun i => x.getLsbD i)) ∧
  (∃ f, Lane1 .clz f ∧ ∀ x, (f x).toNat ≤ 32 ∧ x.toNat < 2 ^ (32 - (f x).toNat) ∧
    ((f x).toNat < 32 → 2 ^ (31 - (f x).toNat) ≤ x.toNat)) ∧
  (∃ f, Lane1 .brev f ∧ ∀ x i, i < 32 → (f x).getLsbD i = x.getLsbD (31 - i)) ∧
  (∃ f, Lane1 .ffs f ∧ f 0 = 32 ∧ ∀ x, x ≠ 0 → x.getLsbD (f x).toNat = true ∧ ∀ j, j < (f x).toNat → x.getLsbD j = false) ∧
  (∃ f, Lane2 .bfxN f ∧ ∀ a b i, i < 32 →
    (f a b).getLsbD i = (decide (i < min (b.toNat / 256 % 256) 32) && a.getLsbD (b.toNat % 256 + i))) ∧
  (∃ f, Lane2 .bfxI f ∧ ∀ a b i, i < 32 → (f a b).getLsbD i =
    (decide (min (b.toNat / 256 % 256) 32 ≠ 0) &&
      a.getLsbD (min 31 (b.toNat % 256 + min i (min (b.toNat / 256 % 256) 32 - 1))))) ∧
  (∃ f : Word → Word → Word → Word,
    (∀ d a b w, LaneValue (.bfi d a b w) [a.toNat, b.toNat] d.toNat fun x => f (x a.toNat) (x b.toNat) (x d.toNat)) ∧
    ∀ a b d i, i < 32 → (f a b d).getLsbD i =
      if b.toNat % 256 ≤ i ∧ i < b.toNat % 256 + min (b.toNat / 256 % 256) 32 then a.getLsbD (i - b.toNat % 256)
      else d.getLsbD i) ∧
  (∀ d a b (n : BitVec 3) w, LaneValue (.lea d a b n w) [a.toNat, b.toNat] d.toNat
    fun x => x a.toNat + .ofNat 32 ((x b.toNat).toNat * 2 ^ n.toNat)) ∧
  (let ones := fun (f : Nat) (i : BitVec 7 → BitVec 7 → Bool → Instr) => ∀ (d a : BitVec 7) w,
     decode (.ofNat 32 (7 * 2 ^ 25 + d.toNat * 2 ^ 18 + a.toNat * 2 ^ 11 + f * 2 + w.toNat)) = .ok (i d a w)
   ones 0 .popc ∧ ones 1 .clz ∧ ones 2 .brev ∧ ones 3 .ffs) ∧
  LaneWords 7 4 .bfxN ∧ LaneWords 7 5 .bfxI ∧ LaneWords 7 6 .bfi ∧ NoWords 7 (fun f b => f = 7 ∨ (f < 4 ∧ b ≠ 0)) ∧
  (∀ f, f ≤ 4 → LaneWords 8 f fun d a b w => .lea d a b (.ofNat 3 f) w) ∧ NoWords 8 (fun f _ => 5 ≤ f)

/-- R108 to R110, R68: moves. CMOV leaves a lane of the bundle as it was where its predicate, inverted by N, is false; SRD
writes the low word of a register readable at the group's level, or the lane number. -/
def Obligations.LaneMoves : Prop :=
  (∀ d i w, LaneForm (.movi d i w) [] d.toNat (fun e _ => laneImmediate e i) fun _ => 0) ∧
  Lane1 .mov (fun x => x) ∧
  (∀ d a w, LaneMove (.movgLo d a w) [] [] [a.toNat] [d.toNat] (fun _ _ _ => True)
    fun _ g _ _ _ => .ofNat 32 (g.gAt a.toNat).toNat) ∧
  (∀ d a w, LaneMove (.movgHi d a w) [] [] [a.toNat] [d.toNat] (fun _ _ _ => True)
    fun _ g _ _ _ => .ofNat 32 ((g.gAt a.toNat).toNat / 2 ^ 32)) ∧
  (∀ d a w, LaneMove (.mov2 d a w) [a.toNat, a.toNat + 1] [] [] [d.toNat, d.toNat + 1] (fun _ _ _ => True)
    fun _ g _ r l => g.vAt (if r = d.toNat then a.toNat else a.toNat + 1) l) ∧
  (∀ d a p n w, LaneMove (.cmov d a p n w) [a.toNat] [p.toNat] [] [d.toNat] (fun _ _ _ => True)
    fun _ g _ r l => if (g.pAt p.toNat).getLsbD l.val = !n then g.vAt a.toNat l else g.vAt r l) ∧
  (∀ d a p n w, LaneMove (.cmovD d a p n w) [a.toNat, a.toNat + 1] [p.toNat] [] [d.toNat, d.toNat + 1] (fun _ _ _ => True)
    fun _ g _ r l => if (g.pAt p.toNat).getLsbD l.val = !n then g.vAt (if r = d.toNat then a.toNat else a.toNat + 1) l
      else g.vAt r l) ∧
  (∀ d (n : BitVec 12) w x, n ≠ 0x000 → n ≠ 0x010 →
    LaneMove (.srd d n w) [] [] [] [d.toNat] (fun s g e => s.readSr g e n.toNat = some x ∧ (n = 0x021 → g.lanesBusy = false))
      fun _ _ _ _ _ => .ofNat 32 x) ∧
  (∀ d (n : BitVec 12) w, n = 0x000 ∨ n = 0x010 →
    LaneMove (.srd d n w) [] [] [] [d.toNat] (fun _ _ _ => True) fun _ _ _ _ l => .ofNat 32 l.val)

/-- R111 to R113: compares write a lane predicate, and the predicate logic takes each operand inverted by its bit. -/
def Obligations.LanePredicates : Prop :=
  (∀ p a b c w, LaneTest (.icmp p a b c w) [a.toNat, b.toNat] [] p.toNat fun g l =>
    let x := g.vAt a.toNat l
    let y := g.vAt b.toNat l
    match c.toNat with
    | 0 => x == y
    | 1 => x != y
    | 2 => decide (x.toInt < y.toInt)
    | 3 => decide (x.toInt ≤ y.toInt)
    | 4 => decide (y.toInt < x.toInt)
    | 5 => decide (y.toInt ≤ x.toInt)
    | 6 => decide (x.toNat < y.toNat)
    | 7 => decide (x.toNat ≤ y.toNat)
    | 8 => decide (y.toNat < x.toNat)
    | _ => decide (y.toNat ≤ x.toNat)) ∧
  (∀ p a b (c : BitVec 4) w, c.toNat < 8 → LaneTest (.fcmp p a b c w) [a.toNat, b.toNat] [] p.toNat fun g l =>
    fcond c.toNat (decodeF .f32 (g.vAt a.toNat l).toNat) (decodeF .f32 (g.vAt b.toNat l).toNat)) ∧
  (∀ p a b (c : BitVec 4) w, 8 ≤ c.toNat →
    LaneTest (.fcmp p a b c w) [a.toNat, a.toNat + 1, b.toNat, b.toNat + 1] [] p.toNat fun g l =>
      fcond (c.toNat - 8) (decodeF .f64 (pairOf g a.toNat l)) (decodeF .f64 (pairOf g b.toNat l))) ∧
  (∀ d a b x y, LaneTest (.pand d a b x y) [] [a.toNat, b.toNat] d.toNat fun g l =>
    (x ^^ (g.pAt a.toNat).getLsbD l.val) && (y ^^ (g.pAt b.toNat).getLsbD l.val)) ∧
  (∀ d a b x y, LaneTest (.por d a b x y) [] [a.toNat, b.toNat] d.toNat fun g l =>
    (x ^^ (g.pAt a.toNat).getLsbD l.val) || (y ^^ (g.pAt b.toNat).getLsbD l.val)) ∧
  (∀ d a b x y, LaneTest (.pxor d a b x y) [] [a.toNat, b.toNat] d.toNat fun g l =>
    (x ^^ (g.pAt a.toNat).getLsbD l.val) != (y ^^ (g.pAt b.toNat).getLsbD l.val)) ∧
  (∀ d a x, LaneTest (.pmov d a x) [] [a.toNat] d.toNat fun g l => x ^^ (g.pAt a.toNat).getLsbD l.val) ∧
  (∀ d y, LaneTest (.pset d y) [] [] d.toNat fun _ _ => !y)

/-- R114, R115, R117: floating arithmetic in each of the four types, one rounding each, B negated by N; FMAC reads its
destination. The rounded results and flags are those of Machine/Numbers.lean. -/
def Obligations.LaneFloatArithmetic : Prop :=
  (∀ d a b, FloatForm (fun t w => .fadd d a b t w) d.toNat [a.toNat, b.toNat] (fp2 fadd)) ∧
  (∀ d a b, FloatForm (fun t w => .fsub d a b t w) d.toNat [a.toNat, b.toNat] (fp2 fsub)) ∧
  (∀ d a b n, FloatForm (fun t w => .fmul d a b t n w) d.toNat [a.toNat, b.toNat] (fp2 fun f => fmul f n)) ∧
  (∀ d a b n, FloatForm (fun t w => .fmac d a b t n w) d.toNat [a.toNat, b.toNat, d.toNat] (fp3 fun f => fmac f n)) ∧
  (∀ d a b, FloatForm (fun t w => .fmin d a b t w) d.toNat [a.toNat, b.toNat]
    (fp2 fun f x y => (fminmax f false x y, 0))) ∧
  (∀ d a b, FloatForm (fun t w => .fmax d a b t w) d.toNat [a.toNat, b.toNat]
    (fp2 fun f x y => (fminmax f true x y, 0))) ∧
  (∀ d a (m : BitVec 3), FloatForm (fun t w => .frnd d a t m w) d.toNat [a.toNat]
    fun f xs => (frnd f (match m.toNat with
      | 0 => .rne
      | 1 => .rtz
      | 2 => .flr
      | 3 => .ceil
      | _ => .rna) (xs.headD 0), 0))

/-- R116, R118 to R120: the special functions of f32, and CVT from each source type to each destination type; only a
stochastic CVT draws from the lane's generator. -/
def Obligations.LaneSpecialAndConvert : Prop :=
  (∀ fn : SpFn, ∀ d a w, LaneForm
    (match fn with
      | .rcp => .frcp d a w
      | .rsq => .frsq d a w
      | .sqrt => .fsqrt d a w
      | .ex2 => .fex2 d a w
      | .lg2 => .flg2 d a w
      | .sinp => .fsinp d a w
      | .cosp => .fcosp d a w) [a.toNat] d.toNat
    (fun _ x => .ofNat 32 (special fn (x a.toNat).toNat).1) fun x => (special fn (x a.toNat).toNat).2) ∧
  (∀ d a (c : BitVec 6) (r : BitVec 3) sat w,
    let res := fun (g : Group) (l : Fin 128) =>
      cvtTo (c.toNat % 8) (cvtMode r.toNat (nextRandom g.rng[l]).2) sat (cvtVal (c.toNat / 8) a.toNat (g.laneIn l))
    let wide := c.toNat % 8 = 1 ∨ c.toNat % 8 = 6 ∨ c.toNat % 8 = 7
    LaneMulti (.cvt d a c r sat w) (cvtRegs (c.toNat / 8) a.toNat) [] []
      (cvtRegs (c.toNat % 8) d.toNat) (fun _ _ _ => True)
      (fun _ g _ reg l => if wide ∧ reg ≠ d.toNat then .ofNat 32 ((res g l).1 / 2 ^ 32) else .ofNat 32 (res g l).1)
      (fun _ g l => (res g l).2)
      (fun _ g l => if r = 6 then (nextRandom g.rng[l]).1 else g.rng[l]))

/-- R121 to R123: packing and unpacking through a format slot. A slot with another code makes the word illegal; a block with
only some of its lanes in the bundle traps, so neither is asked for here. -/
def Obligations.LanePacking : Prop :=
  (∀ d a b (f : BitVec 3) w s gid ei g e, Acts s gid ei g e → packable (s.slotOf g f.toNat) = true →
    VReady g e.mask (d.toNat :: b.toNat :: (List.range (32 / slotWidth (s.slotOf g f.toNat))).map (a.toNat + ·)) →
    let slot := s.slotOf g f.toNat
    let r := fun l => packFrom slot (slotBias slot - (g.vAt b.toNat l).toInt) (g.laneIn l) a.toNat
      (32 / slotWidth slot) 0 g.rng[l]
    ∃ g', Completes (.pkn d a b f w) s gid ei g g' ∧
      WritesV g g' e.mask [d.toNat] (fun _ l => .ofNat 32 (r l).1) ∧ Raises g g' e.mask (fun l => (r l).2.1) ∧
      (∀ l : Fin 128, g'.rng[l] = if e.mask.getLsbD l.val = true then (r l).2.2 else g.rng[l]) ∧
      { g' with v := g.v, arith := g.arith, rng := g.rng, entries := g.entries } = g) ∧
  (∀ d a b (f : BitVec 3) w s gid ei g e, Acts s gid ei g e → packable (s.slotOf g f.toNat) = true →
    VReady g e.mask (a.toNat :: b.toNat :: (List.range (32 / slotWidth (s.slotOf g f.toNat))).map (d.toNat + ·)) →
    let slot := s.slotOf g f.toNat
    let el := fun (l : Fin 128) i => toF32 ((g.vAt b.toNat l).toInt - slotBias slot)
      (decodeSlot slot ((g.vAt a.toNat l).toNat / 2 ^ (slotWidth slot * i) % 2 ^ slotWidth slot))
    ∃ g', Completes (.upkn d a b f w) s gid ei g g' ∧
      WritesV g g' e.mask ((List.range (32 / slotWidth slot)).map (d.toNat + ·))
        (fun r l => .ofNat 32 (el l (r - d.toNat)).1) ∧
      (∀ k, g'.arith.getLsbD k = true ↔ g.arith.getLsbD k = true ∨ ∃ l : Fin 128, e.mask.getLsbD l.val = true ∧
        ∃ i, i < 32 / slotWidth slot ∧ (el l i).2.getLsbD k = true) ∧
      { g' with v := g.v, arith := g.arith, entries := g.entries } = g) ∧
  (∀ k d a b (f : BitVec 3) w s gid ei g e, Acts s gid ei g e → slotMere (s.slotOf g f.toNat) = some k →
    partBlock k e.mask = false →
    let slot := s.slotOf g f.toNat
    let n := laneElems k
    (VReady g e.mask (d.toNat :: b.toNat :: (List.range n).map (a.toNat + ·)) →
      ∃ g', Completes (.pkb d a b f w) s gid ei g g' ∧
        WritesV g g' e.mask [d.toNat] (fun _ l => .ofNat 32 ((pkbRecord g slot k a.toNat b.toNat (l.val / blockLanes k)).1 /
          2 ^ (32 * (l.val % blockLanes k)))) ∧
        g'.arith = g.arith ||| blockFlags k e.mask (fun q => (pkbRecord g slot k a.toNat b.toNat q).2) ∧
        (∀ l : Fin 128, g'.rng[l] =
          if slotStoch slot = true ∧ e.mask.getLsbD l.val = true then (draws n g.rng[l]).2 else g.rng[l]) ∧
        { g' with v := g.v, arith := g.arith, rng := g.rng, entries := g.entries } = g) ∧
    (VReady g e.mask (a.toNat :: b.toNat :: (List.range n).map (d.toNat + ·)) →
      ∃ g', Completes (.upkb d a b f w) s gid ei g g' ∧
        WritesV g g' e.mask ((List.range n).map (d.toNat + ·))
          (fun r l => .ofNat 32 (upkbElem g slot k a.toNat b.toNat l (r - d.toNat)).1) ∧
        (∀ j, g'.arith.getLsbD j = true ↔ g.arith.getLsbD j = true ∨ ∃ l : Fin 128, e.mask.getLsbD l.val = true ∧
          ∃ o, o < n ∧ (upkbElem g slot k a.toNat b.toNat l o).2.getLsbD j = true) ∧
        { g' with v := g.v, arith := g.arith, entries := g.entries } = g) ∧
    (VReady g e.mask (d.toNat :: (List.range (n + 1)).map (a.toNat + ·)) →
      ∃ g', Completes (.bscl d a f w) s gid ei g g' ∧
        WritesV g g' e.mask [d.toNat]
          (fun _ l => .ofNat 32 (mereE (blockVals g slot k a.toNat (a.toNat + n) (l.val / blockLanes k)))) ∧
        { g' with v := g.v, entries := g.entries } = g))

/-- R125 to R128: the cross-lane forms over the lanes of the bundle. -/
def Obligations.LaneCrossForms : Prop :=
  (∀ d a b (f : BitVec 3) w, LaneMove (.shfl d a b f w) [a.toNat, b.toNat] [] [] [d.toNat] (fun _ _ _ => True)
    fun _ g e _ l =>
      let k := (g.vAt b.toNat l).toNat % 128
      let own := g.vAt a.toNat l
      let from_ := fun (n : Nat) => if h : n < 128 then (if e.mask.getLsbD n then g.vAt a.toNat ⟨n, h⟩ else own) else own
      match f.toNat with
      | 0 => from_ k
      | 1 => if k ≤ l.val then from_ (l.val - k) else own
      | 2 => from_ (l.val + k)
      | _ => from_ (l.val ^^^ k)) ∧
  (∀ d a (f : BitVec 3) w s gid ei g e, Acts s gid ei g e → VReady g e.mask [d.toNat, a.toNat] →
    ∃ g', Completes (.redx d a f w) s gid ei g g' ∧
      WritesV g g' e.mask [d.toNat] (fun _ _ => (redxAll f.toNat g a.toNat e.mask).1) ∧
      g'.arith = g.arith ||| (redxAll f.toNat g a.toNat e.mask).2 ∧
      { g' with v := g.v, arith := g.arith, entries := g.entries } = g) ∧
  (∀ d a (f : BitVec 3) w s gid ei g e, Acts s gid ei g e → VReady g e.mask [d.toNat, a.toNat] →
    ∃ g', Completes (.scnx d a f w) s gid ei g g' ∧
      (∀ l : Fin 128, e.mask.getLsbD l.val = true →
        some (g'.vAt d.toNat l) = (((lanesIn e.mask).filter fun k => k.val ≤ l.val).foldl
          (fun acc k => match acc with
            | none => some (g.vAt a.toNat k)
            | some x => some (redOp f.toNat x (g.vAt a.toNat k)).1) none)) ∧
      (∀ (r : Nat) (l : Fin 128), r ≠ d.toNat ∨ e.mask.getLsbD l.val = false → g'.vAt r l = g.vAt r l) ∧
      g'.arith = g.arith ||| (scan f.toNat g a.toNat (lanesIn e.mask) none).2 ∧
      { g' with v := g.v, arith := g.arith, entries := g.entries } = g) ∧
  (∀ d a (f : BitVec 3) w, f ≠ 2 → LaneMove (.vote d a f w) [] [a.toNat] [] [d.toNat] (fun _ _ _ => True)
    fun _ g e _ _ =>
      let v := g.pAt a.toNat &&& e.mask
      match f.toNat with
      | 0 => if v = e.mask then 1 else 0
      | 1 => if v = 0 then 0 else 1
      | _ => .ofNat 32 (lanesIn v).length) ∧
  (∀ d a w, LaneMove (.vote d a 2 w) [] [a.toNat] [] [d.toNat, d.toNat + 1, d.toNat + 2, d.toNat + 3] (fun _ _ _ => True)
    fun _ g e r _ => .ofNat 32 ((g.pAt a.toNat &&& e.mask).toNat / 2 ^ (32 * (r - d.toNat))))

/-! ### Uniform arithmetic -/

/-- R129, R130, R132: the uniform 64-bit forms, each with its frame; shift counts of 64 and more fill with 0 or the sign; an
immediate is widened by a LIT (R50). Each form's opcode and F, and the words of R129's opcode that are none of them. -/
def Obligations.UniformArithmetic : Prop :=
  Uni2 .gadd (fun x y => x + y) ∧ Uni2 .gsub (fun x y => x - y) ∧ Uni2 .gmul (fun x y => x * y) ∧
  Uni2 .gmulhN (fun x y => .ofNat 64 (x.toNat * y.toNat / 2 ^ 64)) ∧
  Uni2 .gmulhI (fun x y => .ofInt 64 (x.toInt * y.toInt / 2 ^ 64)) ∧
  Uni2 .gand (fun x y => x &&& y) ∧ Uni2 .gor (fun x y => x ||| y) ∧ Uni2 .gxor (fun x y => x ^^^ y) ∧
  Uni2 .gandn (fun x y => x &&& ~~~ y) ∧
  Uni2 .gshl (fun x y => .ofNat 64 (x.toNat * 2 ^ y.toNat)) ∧ Uni2 .gshr (fun x y => .ofNat 64 (x.toNat / 2 ^ y.toNat)) ∧
  Uni2 .gsar (fun x y => .ofInt 64 (x.toInt / 2 ^ y.toNat)) ∧
  Uni2 .gminI (fun x y => .ofInt 64 (min x.toInt y.toInt)) ∧ Uni2 .gmaxI (fun x y => .ofInt 64 (max x.toInt y.toInt)) ∧
  Uni2 .gminN (fun x y => .ofNat 64 (min x.toNat y.toNat)) ∧ Uni2 .gmaxN (fun x y => .ofNat 64 (max x.toNat y.toNat)) ∧
  (∀ d a i w, UniForm (.gaddi d a i w) [a.toNat] d.toNat fun e x => x a.toNat + uniImmediate e i) ∧
  (∀ d i w, UniForm (.gmovi d i w) [] d.toNat fun e _ => uniImmediate e i) ∧
  (∀ d a w, UniForm (.gmov d a w) [a.toNat] d.toNat fun _ x => x a.toNat) ∧
  (let word := fun (op low : Nat) (d a : BitVec 6) (w : Bool) =>
     decode (.ofNat 32 ((64 + op) * 2 ^ 25 + d.toNat * 2 ^ 19 + a.toNat * 2 ^ 13 + low * 2 + w.toNat))
   (∀ d a b w, [Instr.gadd d a b w, .gsub d a b w, .gmul d a b w, .gmulhN d a b w, .gmulhI d a b w, .gand d a b w, .gor d a b w,
     .gxor d a b w, .gandn d a b w, .gshl d a b w, .gshr d a b w, .gsar d a b w, .gminI d a b w, .gmaxI d a b w, .gminN d a b w,
     .gmaxN d a b w].map Except.ok = (List.range 16).map fun f => word 1 (b.toNat * 64 + f) d a w) ∧
   (∀ x : Word, x.toNat / 2 ^ 25 = 65 → 16 ≤ x.toNat / 2 % 64 → ∃ r, decode x = .error r) ∧
   (∀ d a (i : BitVec 12) w, word 2 i.toNat d a w = .ok (.gaddi d a i w)) ∧
   ∀ d (i : BitVec 18) w, word 3 i.toNat d 0 w = .ok (.gmovi d i w))

/-- R131, R113: GCMP and the uniform predicate logic write one uniform predicate; a write to Q0 is discarded. GCMP's words, and
the words of its opcode that trap. -/
def Obligations.UniformPredicates : Prop :=
  (∀ q a b c w, UniTest (.gcmp q a b c w) [a.toNat, b.toNat] [] q.toNat fun g =>
    let x := g.gAt a.toNat
    let y := g.gAt b.toNat
    match c.toNat with
    | 0 => x == y
    | 1 => x != y
    | 2 => decide (x.toInt < y.toInt)
    | 3 => decide (x.toInt ≤ y.toInt)
    | 4 => decide (y.toInt < x.toInt)
    | 5 => decide (y.toInt ≤ x.toInt)
    | 6 => decide (x.toNat < y.toNat)
    | 7 => decide (x.toNat ≤ y.toNat)
    | 8 => decide (y.toNat < x.toNat)
    | _ => decide (y.toNat ≤ x.toNat)) ∧
  (∀ q x y n m, UniTest (.qand q x y n m) [] [x.toNat, y.toNat] q.toNat fun g =>
    (n ^^ g.qAt x.toNat) && (m ^^ g.qAt y.toNat)) ∧
  (∀ q x y n m, UniTest (.qor q x y n m) [] [x.toNat, y.toNat] q.toNat fun g =>
    (n ^^ g.qAt x.toNat) || (m ^^ g.qAt y.toNat)) ∧
  (∀ q x y n m, UniTest (.qxor q x y n m) [] [x.toNat, y.toNat] q.toNat fun g =>
    (n ^^ g.qAt x.toNat) != (m ^^ g.qAt y.toNat)) ∧
  (∀ q x n, UniTest (.qmov q x n) [] [x.toNat] q.toNat fun g => n ^^ g.qAt x.toNat) ∧
  (∀ q m, UniTest (.qset q m) [] [] q.toNat fun _ => !m) ∧
  (∀ (q c : BitVec 4) (a b : BitVec 6) w, c.toNat < 10 →
    decode (.ofNat 32 (68 * 2 ^ 25 + q.toNat * 2 ^ 21 + a.toNat * 2 ^ 15 + b.toNat * 2 ^ 9 + c.toNat * 2 ^ 5 + w.toNat)) =
      .ok (.gcmp q a b c w)) ∧
  ∀ x : Word, x.toNat / 2 ^ 25 = 68 → 10 ≤ x.toNat / 2 ^ 5 % 16 ∨ x.toNat / 2 % 16 ≠ 0 → ∃ r, decode x = .error r

/-- R68, R98, R132: GSRD reads a register readable at the group's level, SR.ARITH once the group's lane instructions are done; GLANE reads V[B] of the lane G[A] names, or of the
bundle's lowest lane, whatever entry holds it. -/
def Obligations.UniformReads : Prop :=
  (∀ d (n : BitVec 12) w s gid ei g e x, Acts s gid ei g e → GReady g [d.toNat] → s.readSr g e n.toNat = some x →
    (n = 0x021 → g.lanesBusy = false) →
    ∃ g', Completes (.gsrd d n w) s gid ei g g' ∧ WritesG g g' d.toNat (.ofNat 64 x) ∧
      { g' with g := g.g, entries := g.entries } = g) ∧
  (∀ d a b w s gid ei g e (l : Fin 128), Acts s gid ei g e → GReady g [d.toNat, a.toNat] → b.toNat < 8 * g.blocks →
    l.val = (if (g.gAt a.toNat).getLsbD 7 then lowestLane e.mask else (g.gAt a.toNat).toNat % 128) →
    g.vEmpty b.toNat (laneBit l.val) = false →
    ∃ g', Completes (.glane d a b w) s gid ei g g' ∧ WritesG g g' d.toNat (.ofNat 64 (g.vAt b.toNat l).toNat) ∧
      { g' with g := g.g, entries := g.entries } = g)

/-! ### Branches, the ends of lanes and groups, prefixes -/

namespace Sys2Proof.Claims
open Sys2Proof.Machine

/-- Lane `l` stands at `pc`, in an entry of at least priority `pri`. -/
def LaneAt (g : Group) (l : Fin 128) (pc : DWord) (pri : BitVec 4) : Prop :=
  ∃ x ∈ g.entries, x.pc = pc ∧ x.mask.getLsbD l.val = true ∧ pri.toNat ≤ x.pri.toNat

/-- The lanes outside the bundle stand where they stood. -/
def OthersStay (g g' : Group) (m : Mask) : Prop :=
  ∀ l : Fin 128, m.getLsbD l.val = false → ∀ pc, LaneAt g' l pc 0 ↔ LaneAt g l pc 0

/-- The address a direct branch goes to: the word's own address plus four times its immediate (R32, R50). -/
def branchTarget {w : Nat} (e : Entry) (o : BitVec w) : DWord := e.pc + 4 * BitVec.ofNat 64 e.pre.words + 4 * uniImmediate e o

/-- Lane `l` of the bundle takes a branch on P[p], inverted by N. -/
def takes (g : Group) (e : Entry) (p : BitVec 6) (n : Bool) (l : Fin 128) : Prop :=
  e.mask.getLsbD l.val = true ∧ (g.pAt p.toNat).getLsbD l.val = !n

end Sys2Proof.Claims

/-- R271, R273: BR sends the lanes whose predicate holds to the target at priority R and the others to the next word; with
U = 1 a bundle that would split traps UNIFORM_VIOLATION instead. CALL does the same and gives each lane that goes the return
record (next word, priority). -/
def Obligations.BranchesSendLanes : Prop :=
  ∀ s gid ei g e, Acts s gid ei g e → ∀ (p : BitVec 6) (n u : Bool) (r : BitVec 4) (o : BitVec 13), PReady g e.mask [p.toNat] →
    ((u = false ∨ (∀ l, e.mask.getLsbD l.val = true → takes g e p n l) ∨ (∀ l, ¬ takes g e p n l)) →
      (∃ g', exec (.br p n u r o) s = .next (s.putGroup gid g') ∧ { g' with entries := g.entries } = g ∧
        OthersStay g g' e.mask ∧ (∀ l, takes g e p n l → LaneAt g' l (branchTarget e o) r) ∧
        ∀ l : Fin 128, e.mask.getLsbD l.val = true → ¬ takes g e p n l → LaneAt g' l (Entry.advance e).pc 0) ∧
      ((∀ l, takes g e p n l → g.ret[l].length < 16) →
        ∃ g', exec (.call p n u r o) s = .next (s.putGroup gid g') ∧ { g' with entries := g.entries, ret := g.ret } = g ∧
          OthersStay g g' e.mask ∧ (∀ l, takes g e p n l → LaneAt g' l (branchTarget e o) r) ∧
          (∀ l : Fin 128, e.mask.getLsbD l.val = true → ¬ takes g e p n l → LaneAt g' l (Entry.advance e).pc 0) ∧
          (∀ l, takes g e p n l → g'.ret[l] = (e.pc + 4 * BitVec.ofNat 64 e.pre.words + 4, e.pri) :: g.ret[l]) ∧
          ∀ l, ¬ takes g e p n l → g'.ret[l] = g.ret[l])) ∧
    ((u = true ∧ (∃ l, takes g e p n l) ∧ ∃ l : Fin 128, e.mask.getLsbD l.val = true ∧ ¬ takes g e p n l) →
      exec (.br p n u r o) s = .next (s.takeTrap gid ei { cause := .uniformViolation }) ∧
      exec (.call p n u r o) s = .next (s.takeTrap gid ei { cause := .uniformViolation }))

/-- R274 to R276: RET sends each lane of the bundle to the address its return record holds and pops the record; BRX sends each
lane to the 64-bit address it names; GBR sends the whole entry when its uniform predicate, inverted by N, holds. -/
def Obligations.ReturnsAndComputedBranches : Prop :=
  ∀ s gid ei g e, Acts s gid ei g e →
    ((∀ l : Fin 128, e.mask.getLsbD l.val = true → g.ret[l] ≠ []) →
      ∃ g', exec .ret s = .next (s.putGroup gid g') ∧ { g' with entries := g.entries, ret := g.ret } = g ∧
        OthersStay g g' e.mask ∧
        (∀ l : Fin 128, e.mask.getLsbD l.val = true → ∀ pc pri rest, g.ret[l] = (pc, pri) :: rest →
          LaneAt g' l pc pri ∧ g'.ret[l] = rest) ∧
        ∀ l : Fin 128, e.mask.getLsbD l.val = false → g'.ret[l] = g.ret[l]) ∧
    (∀ (a : BitVec 7) r w, VReady g e.mask [a.toNat, a.toNat + 1] →
      (∀ l : Fin 128, e.mask.getLsbD l.val = true → pairOf g a.toNat l % 4 = 0) →
      ∃ g', exec (.brx a r false w) s = .next (s.putGroup gid g') ∧ { g' with entries := g.entries } = g ∧
        OthersStay g g' e.mask ∧
        ∀ l : Fin 128, e.mask.getLsbD l.val = true → LaneAt g' l (.ofNat 64 (pairOf g a.toNat l)) r) ∧
    (∀ (q : BitVec 4) n r (o : BitVec 16), QReady g [q.toNat] →
      ∃ g', exec (.gbr q n r o) s = .next (s.putGroup gid g') ∧ { g' with entries := g.entries } = g ∧
        OthersStay g g' e.mask ∧
        ∀ l : Fin 128, e.mask.getLsbD l.val = true →
          if g.qAt q.toNat = !n then LaneAt g' l (branchTarget e o) r else LaneAt g' l (Entry.advance e).pc 0)

/-- R277, R278, R326: EXIT of one entry of several ends that entry's lanes and no other, and notes that their later
fills are discarded; the final exit, a GEXIT, or a BOWPASS
of a firing, of a group that has nothing under way and no failure to report, ends the group. -/
def Obligations.ExitsEndEntriesAndGroups : Prop :=
  ∀ s gid ei g e, Acts s gid ei g e → g.finalExit = false →
    (1 < g.entries.length → exec .exit s = .next (s.putGroup gid { g with
      entries := mergeAll (g.entries.eraseIdx ei)
      exits := g.exits ++ [(g.accSeq, e.mask)] })) ∧
    ((g.fifo = [] ∧ g.engq = [] ∧ g.posts = [] ∧ g.batchFails = [] ∧ g.logOrder = [] ∧ g.oplog.all (·.isNone) = true ∧
        s.farStores gid g = false ∧ (∀ x ∈ g.entries.eraseIdx ei ++ g.saved, x.wait = none) ∧
        ∀ c ∈ (s.core g.core).copies, c.2.gid ≠ gid) →
      (g.entries.length = 1 → ∃ t, exec .exit s = .next t ∧ KeyMap.find t.groups gid = none) ∧
      (∃ t, exec .gexit s = .next t ∧ KeyMap.find t.groups gid = none) ∧
      ∀ w, (∃ k r, (s.crew g.crew).origin = .firing k r) →
        ∃ t, exec (.bowpass w) s = .next t ∧ KeyMap.find t.groups gid = none)

/-- R50 to R53, R279, R280: NOP only moves on; YIELD marks its entry and moves the core's round-robin orders past the group;
REP and LIT latch their fields before the target word, and change nothing else. -/
def Obligations.PrefixesYieldAndNop : Prop :=
  ∀ s gid ei g e, Acts s gid ei g e →
    exec .nop s = .next (s.putGroup gid { g with entries := moved g ei }) ∧
    (∀ marked : Entry → Entry, (∀ x, marked x = Entry.advance { x with yield := true, yieldAt := s.cycle }) →
      exec .yield s = .next ((s.putGroup gid { g with entries := mergeAll (setAt g.entries ei marked) }).updCore (gid / 96)
        fun c => { c with laneRR := gid % 96, uniRR := gid % 96 })) ∧
    (∀ c x y z, e.pre.words = 0 →
      let latch := fun (f : Entry) =>
        { f with pre := { rep := some (c.toNat, x.toNat, y.toNat, z.toNat), idx := f.resume, words := 1 } }
      exec (.rep c x y z) s = .next (s.putGroup gid { g with entries := setAt g.entries ei latch })) ∧
    (∀ l, e.pre.lit = none →
      let latch := fun (f : Entry) => { f with pre := { f.pre with lit := some l, words := f.pre.words + 1 } }
      exec (.lit l) s = .next (s.putGroup gid { g with entries := setAt g.entries ei latch }))

/-! ### Traps and the registers they write -/

/-- R370, R384: TRAP in a group that is not in its handler, of a crew that names one, is the SOFTWARE trap: the frontier is
saved with the trapping entry first, the trap registers hold the cause with the word's code, the PC and the lanes, the group
runs at level S with one entry of all lanes at priority 15 at the handler, and PLEV and INH say where it came from. -/
def Obligations.TrapTakesTheSoftwareTrap : Prop :=
  ∀ s gid ei g e (c : BitVec 16), Acts s gid ei g e → g.tinfo.getLsbD 3 = false → (s.crew g.crew).params.handler ≠ 0 →
    ∃ g', exec (.trap c) s = .next (s.putGroup gid g') ∧
      g'.entries = [{ pc := (s.crew g.crew).params.handler, pri := 15, mask := allLanes }] ∧
      g'.saved.length = g.entries.length ∧
      (∀ x, g'.saved.head? = some x → x.pc = e.pc ∧ x.mask = e.mask ∧ x.pri = e.pri ∧ x.wait = none ∧ x.resume = e.trep.toNat) ∧
      g'.priv = .s ∧ g'.tcause = .ofNat 32 (256 * c.toNat + 0x13) ∧ g'.tpc = e.pc ∧ g'.taddr = 0 ∧ g'.tlanes = e.mask ∧
      g'.trep = e.trep ∧ g'.trapCause = 0x13 ∧ g'.trapAcc = g.accSeq ∧ g'.tinfo = .ofNat 32 (8 + g.priv.code) ∧ g'.tbarw = [] ∧
      { g' with entries := g.entries, saved := g.saved, priv := g.priv, tcause := g.tcause, tpc := g.tpc, taddr := g.taddr
                tlanes := g.tlanes, trep := g.trep, tinfo := g.tinfo, tbarw := g.tbarw, trapCause := g.trapCause
                trapAcc := g.trapAcc, pass := g.pass, finalExit := g.finalExit } = g

/-- R375: a trap in a handler, or in a group whose crew names no handler, is the death of its context: no group, crew, queue,
stream or launch of it remains. -/
def Obligations.TrapsWithoutHandlerKillTheContext : Prop :=
  ∀ s gid ei g e (t : TrapInfo), Acts s gid ei g e → (KeyMap.find s.contexts g.ctx).isSome = true →
    (g.tinfo.getLsbD 3 = true ∨ (s.crew g.crew).params.handler = 0) →
    let t' := s.takeTrap gid ei t
    KeyMap.find t'.contexts g.ctx = none ∧ (∀ x ∈ t'.groups, x.2.ctx ≠ g.ctx) ∧ (∀ x ∈ t'.crews, x.2.ctx ≠ g.ctx) ∧
      (∀ x ∈ t'.launches, x.2.ctx ≠ g.ctx) ∧ (∀ x ∈ t'.queues, x.2.live = true → x.2.ctx ≠ g.ctx) ∧
      (∀ x ∈ t'.streams, x.2.live = true → x.2.ctx ≠ g.ctx) ∧ (∀ x ∈ t'.sets, x.2.ctx ≠ g.ctx)

/-- R374: ERET of a precise trap restores the level PLEV names and clears INH; the saved entry 0 resumes at SR.TPC with the
lanes SR.TLANES leaves it, and every other saved entry stands where it stood. -/
def Obligations.EretReturnsFromATrap : Prop :=
  ∀ s gid ei g e, Acts s gid ei g e → g.priv ≠ .l → g.tinfo.getLsbD 3 = true → g.tinfo.getLsbD 2 = false →
    g.tpc.toNat % 4 = 0 → (∃ x ∈ g.saved.head?, x.mask &&& g.tlanes ≠ 0) →
    ∃ g', exec .eret s = .next (s.putGroup gid g') ∧
      g'.priv = (if g.tinfo.getLsbD 1 then .h else if g.tinfo.getLsbD 0 then .s else .l) ∧ g'.tinfo = g.tinfo &&& 0xFFFFFFF7 ∧ g'.saved = [] ∧
      (∀ x ∈ g.saved.head?, ∀ l : Fin 128, x.mask.getLsbD l.val = true → g.tlanes.getLsbD l.val = true →
        LaneAt g' l g.tpc x.pri) ∧
      (∀ x ∈ g.saved.tail, ∀ l : Fin 128, x.mask.getLsbD l.val = true → LaneAt g' l x.pc x.pri) ∧
      { g' with entries := g.entries, saved := g.saved, priv := g.priv, tinfo := g.tinfo, tbarw := g.tbarw } = g

/-- R48, R386: HALT at level H moves on, and leaves the group halted unless an event of its die is pending; ERET below level
S, and HALT below level H, are no instruction. -/
def Obligations.HaltAndPrivilegedWords : Prop :=
  ∀ s gid ei g e, Acts s gid ei g e →
    (g.priv = .h → exec .halt s = .next (s.putGroup gid { g with
      entries := moved g ei
      halted := g.halted || (vecGet s.dies (g.core % 4) {}).mevent = 0 })) ∧
    (g.priv ≠ .h → exec .halt s = .next (s.takeTrap gid ei { cause := .illegalOpcode })) ∧
    (g.priv = .l → exec .eret s = .next (s.takeTrap gid ei { cause := .illegalOpcode }))

/-- R67, R72, R73, R371, R373, R385, R430: GSRW writes the special register its 12-bit number names, where the level may
write it; SR.WDOG keeps 4,096 for less; SR.CLOCK belongs to the virtual function; a bit written to SR.MEVENT is cleared; a
number not writable at the level is no instruction.
R72, R73, R373, R375, R385, R430: the write of each special register by itself, at a level that may write it: a non-zero
SR.TKILL ends the context, and the others take their value. -/
def Obligations.SpecialRegisterWrites : Prop :=
  (∀ s gid ei g e (h a l : BitVec 6) w, Acts s gid ei g e →
     let n := 64 * h.toNat + l.toNat
     let v := g.gAt a.toNat
     let after := fun (g' : Group) => exec (.gsrw h a l w) s = .next (s.putGroup gid { g' with entries := moved g ei })
     (srWritable n g.priv = false → exec (.gsrw h a l w) s = .next (s.takeTrap gid ei { cause := .illegalOpcode })) ∧
     (GReady g [a.toNat] → g.priv ≠ .l →
       (n = 0x021 → g.lanesBusy = false → after { g with arith := .ofNat 7 v.toNat }) ∧
       (n = 0x023 → after { g with wdog := .ofNat 48 (max 4096 (v.toNat % 2 ^ 48)) }) ∧
       (n = 0x040 → after { g with tcause := .ofNat 32 (v.toNat % 2 ^ 24) }) ∧
       (n = 0x041 → after { g with tpc := v }) ∧ (n = 0x042 → after { g with taddr := v }) ∧
       (n = 0x043 → after { g with tlanes := .ofNat 128 (g.tlanes.toNat / 2 ^ 64 * 2 ^ 64 + v.toNat) }) ∧
       (n = 0x044 → after { g with tlanes := .ofNat 128 (v.toNat * 2 ^ 64 + g.tlanes.toNat % 2 ^ 64) }) ∧
       (n = 0x045 → after { g with trep := .ofNat 7 v.toNat }) ∧
       (n = 0x054 → after { g with tsavea := v }) ∧ (n = 0x055 → after { g with tsaveb := v }) ∧
       (n = 0x058 → after { g with tfsel := .ofNat 7 v.toNat })) ∧
     (GReady g [a.toNat] → g.priv = .h →
       (n = 0x020 → exec (.gsrw h a l w) s = .next ((s.updVf (g.ctx / 4096) fun f => { f with clock := v.toNat }).putGroup gid
         { g with entries := moved g ei })) ∧
       (n = 0x800 → exec (.gsrw h a l w) s = .next ({ s with dies := vecMod s.dies (g.core % 4) fun d =>
         { d with mevent := d.mevent &&& ~~~ BitVec.ofNat 32 v.toNat } }.putGroup gid { g with entries := moved g ei })))) ∧
  (∀ s gid ei g e (v : DWord), Acts s gid ei g e → g.priv ≠ .l →
     (v ≠ 0 → (KeyMap.find s.contexts g.ctx).isSome = true →
       ∃ t, exec (.writeSrTkill v) s = .next t ∧ KeyMap.find t.contexts g.ctx = none ∧ ∀ x ∈ t.groups, x.2.ctx ≠ g.ctx) ∧
     exec (.writeSrTkill 0) s = .next s ∧
     exec (.writeSrArith v) s = .next (s.putGroup gid { g with arith := .ofNat 7 v.toNat }) ∧
     exec (.writeSrWdog v) s = .next (s.putGroup gid { g with wdog := .ofNat 48 (max 4096 (v.toNat % 2 ^ 48)) }) ∧
     exec (.writeSrTfsel v) s = .next (s.putGroup gid { g with tfsel := .ofNat 7 v.toNat }) ∧
     (g.priv = .h →
       exec (.writeSrClock v) s = .next (s.updVf (g.ctx / 4096) fun f => { f with clock := v.toNat }) ∧
       exec (.writeSrMevent v) s = .next { s with dies := vecMod s.dies (g.core % 4) fun d =>
         { d with mevent := d.mevent &&& ~~~ BitVec.ofNat 32 v.toNat } }))


/-! ### Memory -/

namespace Sys2Proof.Claims
open Sys2Proof.Machine

/-- Each lane of the bundle passes every check of its access and goes to the place `L` gives it (R187, R193, R369). -/
def LanesPlaced (s : State) (g : Group) (m : Mask) (addr : Fin 128 → DWord) (n : Nat) (k : Acc) (L : Fin 128 → Loc) : Prop :=
  ∀ l : Fin 128, m.getLsbD l.val = true → ∃ t, s.laneEnd g l.val (addr l).toNat n k = .loc (L l) t

/-- The line of every place in physical memory passes its check (R422). -/
def LinesGood (s : State) (m : Mask) (L : Fin 128 → Loc) : Prop :=
  ∀ l : Fin 128, m.getLsbD l.val = true → ∀ pa, L l = .phys pa → s.lineFault pa = none

/-- Only group `gid` changes among the groups, and it becomes `g'`. -/
def GroupBecomes (s t : State) (gid : Nat) (g' : Group) : Prop :=
  KeyMap.find t.groups gid = some g' ∧ ∀ k, k ≠ gid → KeyMap.find t.groups k = KeyMap.find s.groups k

/-- V registers of a list are marked empty in the bundle, and no other mark changes (R62). -/
def EmptiesV (g g' : Group) (m : Mask) (rs : List Nat) : Prop :=
  ∀ (r : Nat) (l : Fin 128), (vecGet g'.ve r 0).getLsbD l.val =
    ((vecGet g.ve r 0).getLsbD l.val || (rs.contains r && m.getLsbD l.val))

/-- The address G[b] + ZeroExt(V[a]) of each lane (R186). -/
def laneAddr (g : Group) (b : BitVec 5) (a : BitVec 7) (l : Fin 128) : DWord :=
  g.gAt b.toNat + .ofNat 64 (g.vAt a.toNat l).toNat

/-- From memory `m` to `m'` no byte changes but in the hypervisor's event queue of `s`, where an access that takes a row to its
THRESH may post a record (R344, R426). -/
def OnlyQueue (s : State) (m m' : Memory) : Prop :=
  s.evq.len = 0 ∨ s.evq.pos < s.evq.len →
    ∀ a, a < s.evq.base.toNat ∨ s.evq.base.toNat + 64 * s.evq.len ≤ a → m'.read a = m.read a

/-- The bytes a place holds. -/
def bytesAt (s : State) (L : Loc) (n : Nat) : List Byte :=
  match L with
  | .phys pa => s.mem.bytes pa n
  | .scratch c o => (s.core c).mem.bytes o n
  | .fabric _ _ _ => []

end Sys2Proof.Claims

/-- R62, R186, R193 to R195, R378: an LD whose lanes all pass their checks marks its destinations empty in the bundle and
moves on; no register value, no other group and no byte of memory changes, but for an event record of a row that reaches
THRESH (R344). -/
def Obligations.LoadsComplete : Prop :=
  ∀ s gid ei g e (d a : BitVec 7) (b : BitVec 5) (z : BitVec 3) (h : BitVec 2) (w : Bool) (L : Fin 128 → Loc),
    Acts s gid ei g e → g.fencing = false → s.mayLog g e = true → VReady g e.mask (a.toNat :: sizeRegs z.toNat d.toNat) →
    GReady g [b.toNat] → LanesPlaced s g e.mask (laneAddr g b a) (sizeBytes z.toNat) .load L → LinesGood s e.mask L →
    (∀ l : Fin 128, e.mask.getLsbD l.val = true → g.forward (L l) (sizeBytes z.toNat) ≠ .wait) →
    ∃ t g', exec (.ld d a b z h w) s = .next t ∧ GroupBecomes s t gid g' ∧ OnlyQueue s s.mem t.mem ∧ g'.entries = moved g ei ∧
      g'.v = g.v ∧ EmptiesV g g' e.mask (sizeRegs z.toNat d.toNat) ∧ g'.g = g.g ∧ g'.p = g.p ∧ g'.q = g.q

/-- R195: what such a load brings, where nothing of it stands in the group's store FIFO or the core's L1: the fill put on its way
holds, for each bundle lane, the bytes of its place, extended as the size says. -/
def Obligations.LoadsBringTheirBytes : Prop :=
  ∀ s gid ei g e (d a : BitVec 7) (b : BitVec 5) (z : BitVec 3) (h : BitVec 2) (w : Bool) (L : Fin 128 → Loc),
    Acts s gid ei g e → g.fencing = false → s.mayLog g e = true → VReady g e.mask (a.toNat :: sizeRegs z.toNat d.toNat) →
    GReady g [b.toNat] → LanesPlaced s g e.mask (laneAddr g b a) (sizeBytes z.toNat) .load L → LinesGood s e.mask L →
    g.fifo = [] → g.exits = [] → (s.core g.core).l1 = [] → e.mask ≠ 0 →
    (∀ l : Fin 128, e.mask.getLsbD l.val = true → ∀ pa, L l = .phys pa → s.farPort pa = none) →
    (∀ l : Fin 128, e.mask.getLsbD l.val = true → ∀ v n o, L l ≠ .fabric v n o) →
    ∃ t g' f, exec (.ld d a b z h w) s = .next t ∧ KeyMap.find t.groups gid = some g' ∧ g'.fills = g.fills ++ [f] ∧
      ∀ j, j < (sizeRegs z.toNat d.toNat).length → ∀ l : Fin 128, e.mask.getLsbD l.val = true →
        (g'.fillRegs (f.mem.getD g.accSeq) f.v).vAt (d.toNat + j) l =
          let bs := bytesAt s (L l) (sizeBytes z.toNat)
          match z.toNat with
          | 5 => (BitVec.ofNat 8 (leNat bs)).signExtend 32
          | 6 => (BitVec.ofNat 16 (leNat bs)).signExtend 32
          | _ => .ofNat 32 (leNat ((bs.drop (4 * j)).take 4))

/-- R186, R192 to R195, R378: an ST whose lanes all pass their checks puts one entry in the store FIFO, with each lane's place
and the low bytes of its source registers, and moves on; no byte of memory changes before that entry drains. -/
def Obligations.StoresEnterTheFifo : Prop :=
  ∀ s gid ei g e (d a : BitVec 7) (b : BitVec 5) (z : BitVec 3) (h : BitVec 2) (w : Bool) (L : Fin 128 → Loc),
    Acts s gid ei g e → g.fencing = false → s.mayLog g e = true → g.fifo.length < 32 →
    VReady g e.mask (a.toNat :: sizeRegs z.toNat d.toNat) → GReady g [b.toNat] →
    LanesPlaced s g e.mask (laneAddr g b a) (sizeBytes z.toNat) .store L →
    ∃ t g' src parts, exec (.st d a b z h w) s = .next t ∧ GroupBecomes s t gid g' ∧ t.mem = s.mem ∧
      g'.fifo = g.fifo ++ [.store src parts] ∧
      parts = (lanesIn e.mask).map (fun l => { lane := l, addr := laneAddr g b a l, loc := L l
                                               bytes := storeBytesOf ((sizeRegs z.toNat d.toNat).map fun r => g.vAt r l)
                                                 (sizeBytes z.toNat) }) ∧
      { g' with fifo := g.fifo, entries := g.entries, accSeq := g.accSeq } = g ∧ g'.entries = moved g ei

/-- R200, R201, R378: an ATOM whose lanes all pass their checks puts one entry in the store FIFO, with each lane's place and
operands, marks its destinations empty unless it returns nothing, and moves on. -/
def Obligations.AtomicsEnterTheFifo : Prop :=
  ∀ s gid ei g e (d a : BitVec 7) (b : BitVec 5) (o : BitVec 4) (n w : Bool) (L : Fin 128 → Loc),
    Acts s gid ei g e → g.fencing = false → s.mayLog g e = true → g.fifo.length < 32 →
    let dests := if n then [] else if aopWide o.toNat then [d.toNat, d.toNat + 1] else [d.toNat]
    VReady g e.mask (atomSources o.toNat a.toNat ++ dests) → GReady g [b.toNat] →
    LanesPlaced s g e.mask (laneAddr g b a) (if aopWide o.toNat then 8 else 4) .atomic L →
    ∃ t g' src lanes, exec (.atom d a b o n w) s = .next t ∧ GroupBecomes s t gid g' ∧ t.mem = s.mem ∧
      g'.fifo = g.fifo ++ [.atom src o lanes (if n then none else some d)] ∧ EmptiesV g g' e.mask dests ∧
      (∀ l : Fin 128, e.mask.getLsbD l.val = true →
        { lane := l, addr := laneAddr g b a l, loc := L l
          x := if aopWide o.toNat then .ofNat 64 (pairOf g (a.toNat + 2) l) else .ofNat 64 (g.vAt (a.toNat + 1) l).toNat
          y := if aopWide o.toNat then .ofNat 64 (pairOf g (a.toNat + 4) l)
            else .ofNat 64 (g.vAt (a.toNat + 2) l).toNat } ∈ lanes) ∧
      lanes.length = (lanesIn e.mask).length ∧
      { g' with fifo := g.fifo, entries := g.entries, accSeq := g.accSeq, ve := g.ve } = g ∧ g'.entries = moved g ei

/-- R193, R369: where every lane of an LD or an ST reaches the alignment check and some lane is misaligned, the form traps
MISALIGNED for the lowest such lane, with that lane's address in SR.TADDR, and none of its lanes has an effect. -/
def Obligations.MisalignedAccessesTrap : Prop :=
  ∀ s gid ei g e (d a : BitVec 7) (b : BitVec 5) (z : BitVec 3) (h : BitVec 2) (w : Bool) (l0 : Fin 128),
    Acts s gid ei g e → g.fencing = false → s.mayLog g e = true → VReady g e.mask (a.toNat :: sizeRegs z.toNat d.toNat) →
    GReady g [b.toNat] →
    e.mask.getLsbD l0.val = true → (laneAddr g b a l0).toNat % sizeBytes z.toNat ≠ 0 →
    (∀ l : Fin 128, e.mask.getLsbD l.val = true → l.val < l0.val → (laneAddr g b a l).toNat % sizeBytes z.toNat = 0) →
    ((∀ l : Fin 128, e.mask.getLsbD l.val = true →
        (s.locate g l.val (laneAddr g b a l).toNat (sizeBytes z.toNat) .load).isSome = true) →
      exec (.ld d a b z h w) s =
        .next (s.takeTrap gid ei { cause := .misaligned, addr := laneAddr g b a l0, lane := l0.val })) ∧
    ((∀ l : Fin 128, e.mask.getLsbD l.val = true →
        (s.locate g l.val (laneAddr g b a l).toNat (sizeBytes z.toNat) .store).isSome = true) →
      exec (.st d a b z h w) s =
        .next (s.takeTrap gid ei { cause := .misaligned, addr := laneAddr g b a l0, lane := l0.val }))

/-- R200: what an ATOM's operation makes of the value v at its location, its operand x and, for a compare and swap, y. -/
def Obligations.AtomicOperations : Prop :=
  ∀ v x y : DWord,
    let v32 := v.toNat % 2 ^ 32
    let x32 := x.toNat % 2 ^ 32
    let s32 := fun (n : Nat) => (BitVec.ofNat 32 n).toInt
    aopApply 0 v x y = .ofNat 64 ((v32 + x32) % 2 ^ 32) ∧ aopApply 1 v x y = v + x ∧
    (aopApply 2 v x y).toNat = (BitVec.ofInt 32 (min (s32 v32) (s32 x32))).toNat ∧
    (aopApply 3 v x y).toNat = (BitVec.ofInt 32 (max (s32 v32) (s32 x32))).toNat ∧
    aopApply 4 v x y = .ofNat 64 (min v32 x32) ∧ aopApply 5 v x y = .ofNat 64 (max v32 x32) ∧
    aopApply 6 v x y = .ofNat 64 (min v.toNat x.toNat) ∧ aopApply 7 v x y = .ofNat 64 (max v.toNat x.toNat) ∧
    aopApply 8 v x y = .ofNat 64 (v32 &&& x32) ∧ aopApply 9 v x y = .ofNat 64 (v32 ||| x32) ∧
    aopApply 10 v x y = .ofNat 64 (v32 ^^^ x32) ∧ aopApply 11 v x y = .ofNat 64 x32 ∧ aopApply 12 v x y = x ∧
    aopApply 13 v x y = .ofNat 64 (if v32 = x32 then y.toNat % 2 ^ 32 else v32) ∧
    aopApply 14 v x y = (if v = x then y else v) ∧ aopApply 15 v x y = .ofNat 64 (fadd .f32 v32 x32).1


/-! ### Tagged words, copies, barriers, fences, reductions, TLBI -/

namespace Sys2Proof.Claims
open Sys2Proof.Machine

/-- The lanes of the bundle stand at the next word, and no other lane has moved. -/
def MovesOn (g g' : Group) (e : Entry) : Prop :=
  OthersStay g g' e.mask ∧ ∀ l : Fin 128, e.mask.getLsbD l.val = true → LaneAt g' l (Entry.advance e).pc 0

/-- No two lanes of the bundle name one word. -/
def Distinct (m : Mask) (c o : Fin 128 → Nat) : Prop :=
  ∀ l k : Fin 128, m.getLsbD l.val = true → m.getLsbD k.val = true → c l = c k → o l = o k → l = k

/-- A lane of the bundle names word `x` of core `k`'s scratchpad. -/
def Named (m : Mask) (c o : Fin 128 → Nat) (k x : Nat) : Prop :=
  ∃ l : Fin 128, m.getLsbD l.val = true ∧ c l = k ∧ o l / 4 = x

end Sys2Proof.Claims

/-- R197, R198: an LDF whose words are all full completes at once: V[D] takes each lane's word, `.take` (H = 1) empties the tags
of exactly those words, and no byte changes. -/
def Obligations.TaggedLoadsComplete : Prop :=
  ∀ s gid ei g e (d a : BitVec 7) (b : BitVec 5) (h : BitVec 2) (w : Bool) (c o : Fin 128 → Nat),
    Acts s gid ei g e → e.wait = none → g.fencing = false → s.mayLog g e = true → VReady g e.mask [d.toNat, a.toNat] →
    GReady g [b.toNat] → g.fifo = [] →
    LanesPlaced s g e.mask (laneAddr g b a) 4 .tagLoad (fun l => .scratch (c l) (o l)) →
    (∀ l : Fin 128, e.mask.getLsbD l.val = true → o l % 4 = 0 ∧ o l / 4 ∉ (s.core (c l)).emptyTags) →
    (h = 1 → Distinct e.mask c o) →
    ∃ t g', exec (.ldf d a b h w) s = .next t ∧ GroupBecomes s t gid g' ∧ t.mem = s.mem ∧ MovesOn g g' e ∧
      WritesV g g' e.mask [d.toNat] (fun _ l => .ofNat 32 (leNat ((s.core (c l)).mem.bytes (o l) 4))) ∧
      (∀ k, (t.core k).mem = (s.core k).mem) ∧
      ∀ k x, x ∈ (t.core k).emptyTags ↔ x ∈ (s.core k).emptyTags ∨ (h = 1 ∧ Named e.mask c o k x)

/-- R192, R197, R198: an STE whose words are all empty, of a group whose earlier stores are performed: each lane's word takes
V[D] and is full, and no other word, tag or byte of memory changes. An STF, whatever the tags hold, puts one entry in the store
FIFO with each lane's place and V[D], and goes on. -/
def Obligations.TaggedStoresComplete : Prop :=
  ∀ s gid ei g e (d a : BitVec 7) (b : BitVec 5) (w : Bool) (c o : Fin 128 → Nat),
    Acts s gid ei g e → e.wait = none → g.fencing = false → s.mayLog g e = true → VReady g e.mask [d.toNat, a.toNat] →
    GReady g [b.toNat] →
    LanesPlaced s g e.mask (laneAddr g b a) 4 .tagStore (fun l => .scratch (c l) (o l)) →
    (g.fifo = [] → g.logOrder = [] →
      (∀ l : Fin 128, e.mask.getLsbD l.val = true → o l % 4 = 0 ∧ o l / 4 ∈ (s.core (c l)).emptyTags) → Distinct e.mask c o →
      ∃ t g', exec (.ste d a b w) s = .next t ∧ GroupBecomes s t gid g' ∧ t.mem = s.mem ∧ MovesOn g g' e ∧ g'.v = g.v ∧
        g'.fifo = [] ∧
        (∀ l : Fin 128, e.mask.getLsbD l.val = true → (t.core (c l)).mem.readN (o l) 4 = (g.vAt d.toNat l).toNat) ∧
        (∀ k x, ¬ Named e.mask c o k (x / 4) → (t.core k).mem.read x = (s.core k).mem.read x) ∧
        ∀ k x, x ∈ (t.core k).emptyTags ↔ x ∈ (s.core k).emptyTags ∧ ¬ Named e.mask c o k x) ∧
    (g.fifo.length < 32 →
      ∃ g' src parts, Completes (.stf d a b w) s gid ei g g' ∧ g'.fifo = g.fifo ++ [.stf src parts] ∧ src.acc = g.accSeq ∧
        parts = (lanesIn e.mask).map (fun l => { lane := l, addr := laneAddr g b a l, loc := .scratch (c l) (o l)
                                                 bytes := leBytes 4 (g.vAt d.toNat l).toNat }) ∧
        { g' with fifo := g.fifo, entries := g.entries, accSeq := g.accSeq } = g)

/-- R205 to R210: a CPY that has a copy-queue entry and its range locks enters the queue and the store FIFO with its lanes'
addresses, its batch and its barrier, and moves no byte yet; CPYSEAL seals the open batch; CPYWAIT with at most n sealed
batches unfinished, and no failure of a finished one, goes on. -/
def Obligations.CopiesAndBatches : Prop :=
  ∀ s gid ei g e, Acts s gid ei g e → g.role = .copy ∨ g.role = .any →
    (∀ (d a : BitVec 7) (b : BitVec 5) (z : BitVec 2) (t w : Bool) (shared : Bool),
      let n := 4 * 2 ^ z.toNat
      let id := (s.core g.core).nextCopy
      let src := fun (l : Fin 128) => g.gAt b.toNat + .ofNat 64 (g.vAt a.toNat l).toNat
      let dst := fun (l : Fin 128) => g.gAt (b.toNat + 1) + .ofNat 64 (g.vAt d.toNat l).toNat
      let lanes := lanesIn e.mask
      g.fencing = false → VReady g e.mask [a.toNat, d.toNat] →
      GReady g ([b.toNat, b.toNat + 1] ++ if t then [b.toNat + 2] else []) → g.fifo.length < 32 →
      (∀ l : Fin 128, e.mask.getLsbD l.val = true →
        (s.locate g l.val (src l).toNat n .copyRead).isSome = true ∧ (s.locate g l.val (dst l).toNat n .copyWrite).isSome = true ∧
        (src l).toNat % n = 0 ∧ (dst l).toNat % n = 0) →
      (t = true → (s.barrierOf g (g.gAt (b.toNat + 2))).isSome = true) → s.copySlot gid g.core = some shared →
      s.canLock (s.turnOf e) (lockPlan g.core (.copy gid id) (s.copySpans g (lanes.map fun l => (l, src l)) n .copyRead)
        (s.copySpans g (lanes.map fun l => (l, dst l)) n .copyWrite)) = true →
      ∃ u g', exec (.cpy d a b z t w) s = .next u ∧ GroupBecomes s u gid g' ∧ u.mem = s.mem ∧
        g'.fifo = g.fifo ++ [.copy id] ∧ { g' with fifo := g.fifo, entries := g.entries } = g ∧ g'.entries = moved g ei ∧
        (u.core g.core).nextCopy = id + 1 ∧ (u.core g.core).mem = (s.core g.core).mem ∧
        ∃ op : CopyOp, (id, op) ∈ (u.core g.core).copies ∧ op.gid = gid ∧ op.n = n ∧ op.batch = g.batch ∧
          op.lanes = lanes.map (fun l => (l, src l, dst l)) ∧
          op.bar = (if t then some (g.gAt (b.toNat + 2)) else none)) ∧
    (∀ w, g.sealedBatches.length < 64 →
      ∃ t g', exec (.cpyseal w) s = .next t ∧ GroupBecomes s t gid g' ∧ g'.batch = g.batch + 1 ∧ g'.entries = moved g ei ∧
        ((∃ c ∈ (s.core g.core).copies, c.2.gid = gid ∧ c.2.batch = g.batch) → g.batch ∈ g'.sealedBatches) ∧
        { g' with batch := g.batch, sealedBatches := g.sealedBatches, entries := g.entries } = g) ∧
    (∀ (n : BitVec 6) w, e.wait = none → g.sealedBatches.length ≤ n.toNat → g.coveredFail = none →
      exec (.cpywait n w) s = .next (s.putGroup gid { g with entries := moved g ei }))

/-- R213, R215: BARA takes the lowest free place of the core's pool for a barrier of E arrivals at the scope named, with one
reference, and brings its handle to G[D]; with no place free, G[D] := 0 and Q := true. -/
def Obligations.BarriersAreAllocated : Prop :=
  ∀ s gid ei g e (d a : BitVec 6) (q : BitVec 4) (sc : BitVec 3) (w : Bool), Acts s gid ei g e →
    GReady g [d.toNat, a.toNat] → QReady g [q.toNat] → (s.vf (g.ctx / 4096)).grants sc.toNat = true →
    0 < (g.gAt a.toNat).toNat → (g.gAt a.toNat).toNat < 65536 →
    let pool := (s.core g.core).barriers
    let fillOf := fun (h : DWord) (bad : Bool) => ({ g := [(d, h)], q := [(q, bad)] } : Fill)
    (∀ i, i < 256 → (KeyMap.at pool i {}).live = false → (∀ j, j < i → (KeyMap.at pool j {}).live = true) →
      ∃ t g', exec (.bara d a q sc w) s = .next t ∧ GroupBecomes s t gid g' ∧ t.mem = s.mem ∧ g'.entries = moved g ei ∧
        g'.fills = g.fills ++ [fillOf (.ofNat 64 ((KeyMap.at pool i {}).gen * 2 ^ 48 +
          (s.vf (g.ctx / 4096)).coreNumber g.core * 2 ^ 16 + i)) false] ∧
        KeyMap.find (t.core g.core).barriers i = some { gen := (KeyMap.at pool i {}).gen, live := true, ctx := g.ctx
                                                        e := (g.gAt a.toNat).toNat, scope := sc, refs := 1 }) ∧
    ((∀ j, j < 256 → (KeyMap.at pool j {}).live = true) →
      ∃ t g', exec (.bara d a q sc w) s = .next t ∧ GroupBecomes s t gid g' ∧ t.cores = s.cores ∧ g'.entries = moved g ei ∧
        g'.fills = g.fills ++ [fillOf 0 true])

/-- R213, R216 to R218: with a handle that names a live barrier of the context, and no arrival of the group at it
still in the store FIFO, BARREF adds a reference, BARDROP removes one
and with the last ends the barrier and its handles, BARARR puts an arrival in the store FIFO, and BARWAIT for a phase that
has completed goes on; for one that has not, it waits in its entry under the SR.WDOG limit. -/
def Obligations.BarriersAreUsed : Prop :=
  ∀ s gid ei g e (a b : BitVec 6) (w : Bool) core i bar, Acts s gid ei g e → e.wait = none →
    GReady g [a.toNat] → s.barrierOf g (g.gAt a.toNat) = some (core, i, bar) →
    (s.vf (g.ctx / 4096)).grants bar.scope.toNat = true →
    (bar.refs < 65535 → g.arriving (g.gAt a.toNat) = false → ∃ t, exec (.barref a w) s = .next t ∧ GroupBecomes s t gid { g with entries := moved g ei } ∧
      KeyMap.find (t.core core).barriers i = some { bar with refs := bar.refs + 1 }) ∧
    (g.arriving (g.gAt a.toNat) = false → ∃ t, exec (.bardrop a w) s = .next t ∧ GroupBecomes s t gid { g with entries := moved g ei } ∧
      KeyMap.find (t.core core).barriers i = some
        (if bar.refs ≤ 1 then { bar with live := false, gen := (if bar.gen = 65535 then 1 else bar.gen + 1), refs := 0 }
          else { bar with refs := bar.refs - 1 })) ∧
    (∀ x r, g.fencing = false → g.fifo.length < 32 → (x = true → GReady g [b.toNat]) →
      exec (.bararr a b x r w) s = .next (s.putGroup gid { g with
        entries := moved g ei
        fifo := g.fifo ++ [.arrive (g.gAt a.toNat) (if x then (g.gAt b.toNat).toNat % 2 ^ 32 else 0) r] })) ∧
    (GReady g [b.toNat] → core = g.core →
      (2 ^ 31 ≤ (BitVec.ofNat 32 (g.gAt b.toNat).toNat - bar.done).toNat →
        ∃ t, exec (.barwait a b w) s = .next t ∧ GroupBecomes s t gid { g with entries := moved g ei } ∧ t.mem = s.mem ∧
          (2 ≤ bar.scope.toNat → (t.core g.core).l1 = [])) ∧
      ((BitVec.ofNat 32 (g.gAt b.toNat).toNat - bar.done).toNat < 2 ^ 31 →
        ∃ t g' x, exec (.barwait a b w) s = .next t ∧ GroupBecomes s t gid g' ∧ g'.entries[ei]? = some x ∧ x.pc = e.pc ∧
          x.mask = e.mask ∧ ∃ wt, x.wait = some wt ∧ wt.start = s.cycle ∧ wt.limit = g.wdog.toNat))

/-- R211, R212: a FENCE whose conditions hold goes on, and an acquire at .clu or wider empties the core's L1; one whose
conditions do not hold yet waits in its entry; a scope HPOL does not grant traps SCOPE_DENIED (R169). -/
def Obligations.FencesCompleteOrWait : Prop :=
  ∀ s gid ei g e (sc : BitVec 3) (o : BitVec 2) (eng : Bool), Acts s gid ei g e → e.wait = none →
    ((s.vf (g.ctx / 4096)).grants sc.toNat = false →
      exec (.fence sc o eng) s = .next (s.takeTrap gid ei { cause := .scopeDenied })) ∧
    ((s.vf (g.ctx / 4096)).grants sc.toNat = true →
      ((o ≠ 1 → s.acquireReady gid g g.accSeq = true) → (o ≠ 0 → g.fifo = [] ∧ g.logOrder = [] ∧ s.farOut g sc.toNat = false) →
        ∃ t, exec (.fence sc o eng) s = .next t ∧ GroupBecomes s t gid { g with entries := moved g ei } ∧ t.mem = s.mem ∧
          (o ≠ 1 → 2 ≤ sc.toNat → (t.core g.core).l1 = [])) ∧
      ((o ≠ 0 ∧ g.fifo ≠ []) → ∃ t g' x, exec (.fence sc o eng) s = .next t ∧ GroupBecomes s t gid g' ∧
        g'.entries[ei]? = some x ∧ x.pc = e.pc ∧ x.wait.isSome = true))

/-- R220 to R222: NRED puts its contribution in the store FIFO; NRWAIT marks G[D] and Q empty and takes a completed round's
result at once, or waits at the slot. -/
def Obligations.NetworkReductions : Prop :=
  ∀ s gid ei g e (a : BitVec 6) (w : Bool) key, Acts s gid ei g e → GReady g [a.toNat] →
    s.slotKey g.ctx (g.gAt a.toNat) = some key →
    (∀ (b : BitVec 6) (o : BitVec 3), g.fencing = false → GReady g [b.toNat] → g.fifo.length < 32 →
      (g.gAt a.toNat).toNat / 2 ^ 16 % 2 ^ 16 < (g.gAt a.toNat).toNat / 2 ^ 32 % 2 ^ 16 →
      exec (.nred a b o w) s = .next (s.putGroup gid { g with
        entries := moved g ei
        fifo := g.fifo ++ [.nred (g.gAt a.toNat) o (g.gAt b.toNat)] })) ∧
    (∀ (d : BitVec 6) (q : BitVec 4), GReady g [d.toNat] → QReady g [q.toNat] →
      (∀ r slot, KeyMap.find s.slots key = some slot → slot.result = some r → slot.ctx = g.ctx →
        (∀ x ∈ s.nrwaits, ¬ (x.slot = key ∧ x.ctx = g.ctx)) →
        ∃ t g', exec (.nrwait d a q w) s = .next t ∧ GroupBecomes s t gid g' ∧ g'.entries = moved g ei ∧
          g'.fills = g.fills ++ [{ g := [(d, r.2)], q := [(q, r.1)] }] ∧ t.nrwaits = s.nrwaits) ∧
      ((∀ slot, KeyMap.find s.slots key = some slot → slot.result = none) →
        ∃ t g' x, exec (.nrwait d a q w) s = .next t ∧ GroupBecomes s t gid g' ∧ g'.entries = moved g ei ∧
          g'.fills = g.fills ∧ g'.gEmpty d.toNat = true ∧ t.nrwaits = s.nrwaits ++ [x] ∧ x.slot = key ∧ x.gid = gid ∧
          x.d = d ∧ x.q = q))

/-- R364, R365: with the group's earlier accesses performed, and no access of the virtual function left that used a translation,
a TLBI of each kind completes: it drops the translations and the table entries it names, and only those. `.va` drops the page's
own and those of the block it lies in; `.ipa` drops every translation built on a stage-2 entry of the page. `.ipa` and `.s2`
below level H, and the others at level L, are no instruction; a G[B] with a bit R364 reserves traps ACCESS_VIOLATION.
R196: a PF moves on, changes no register and no byte of memory but for the event record of a row that reaches THRESH (R344), and
traps on no lane. -/
def Obligations.TranslationsAndPrefetches : Prop :=
  (∀ s gid ei g e (a b : BitVec 6) (w : Bool), Acts s gid ei g e → e.wait = none → GReady g [a.toNat, b.toNat] →
     let x := g.gAt b.toNat
     let vf := if g.priv = .h then x.toNat / 2 ^ 16 % 32 else g.ctx / 4096
     let asid := BitVec.ofNat 16 x.toNat
     let page := (g.gAt a.toNat).toNat / 65536
     let inBlock := fun (sh part : Nat) => part == page * 65536 / 2 ^ sh
     let onPage := fun (t : WalkEntry) => t.stage == 2 && t.vf == vf && inBlock t.sh t.part
     let keeps := fun (drop : TlbEntry → Bool) (dropTable : WalkEntry → Bool) =>
       Host.Outcome.next (State.putGroup { s with
         tlb := s.tlb.filter fun t => !(t.vf == vf && drop t)
         walks := s.walks.filter fun t => !(t.vf == vf && dropTable t) } gid { g with entries := moved g ei })
     (x.toNat < 2 ^ 21 → (g.priv ≠ .h → x.toNat < 2 ^ 16) → g.fifo = [] → g.logOrder = [] →
       (∀ h ∈ s.groups, h.2.ctx / 4096 = vf → ∀ o ∈ h.2.fifo, o.translated = false) →
       (g.priv ≠ .l →
         exec (.tlbiVa a b w) s = keeps (fun t => t.asid == asid && inBlock t.sh (t.vpage * 65536 / 2 ^ t.sh))
           (fun t => t.stage == 1 && t.asid == asid && inBlock t.sh t.part) ∧
         exec (.tlbiAsid b w) s = keeps (fun t => t.asid == asid) (fun t => t.stage == 1 && t.asid == asid) ∧
         exec (.tlbiVf b w) s = keeps (fun _ => true) (fun t => t.stage == 1)) ∧
       (g.priv = .h →
         exec (.tlbiIpa a b w) s = keeps (fun t => t.ipage == page || t.path.any onPage) onPage ∧
         exec (.tlbiS2 b w) s = keeps (fun _ => true) (fun _ => true))) ∧
     (g.priv ≠ .l → 2 ^ 21 ≤ x.toNat ∨ g.priv = .s ∧ 2 ^ 16 ≤ x.toNat →
       exec (.tlbiVa a b w) s = .next (s.takeTrap gid ei { cause := .accessViolation }) ∧
       exec (.tlbiAsid b w) s = .next (s.takeTrap gid ei { cause := .accessViolation }) ∧
       exec (.tlbiVf b w) s = .next (s.takeTrap gid ei { cause := .accessViolation }) ∧
       (g.priv = .h →
         exec (.tlbiIpa a b w) s = .next (s.takeTrap gid ei { cause := .accessViolation }) ∧
         exec (.tlbiS2 b w) s = .next (s.takeTrap gid ei { cause := .accessViolation }))) ∧
     (g.priv = .l →
       exec (.tlbiVa a b w) s = .next (s.takeTrap gid ei { cause := .illegalOpcode }) ∧
       exec (.tlbiAsid b w) s = .next (s.takeTrap gid ei { cause := .illegalOpcode }) ∧
       exec (.tlbiVf b w) s = .next (s.takeTrap gid ei { cause := .illegalOpcode })) ∧
     (g.priv ≠ .h →
       exec (.tlbiIpa a b w) s = .next (s.takeTrap gid ei { cause := .illegalOpcode }) ∧
       exec (.tlbiS2 b w) s = .next (s.takeTrap gid ei { cause := .illegalOpcode }))) ∧
  (∀ s gid ei g e (a : BitVec 7) (b : BitVec 5) (h : BitVec 2) (w : Bool), Acts s gid ei g e → g.fencing = false →
     VReady g e.mask [a.toNat] → GReady g [b.toNat] →
     ∃ t, exec (.pf a b h w) s = .next t ∧ OnlyQueue s s.mem t.mem ∧ GroupBecomes s t gid { g with entries := moved g ei } ∧
       ∀ k, (t.core k).mem = (s.core k).mem)


/-! ### Textures and the engine -/

namespace Sys2Proof.Claims
open Sys2Proof.Machine

/-- The bytes a read of lane `l` finds at an address, with nothing of them in the store FIFO or the L1. -/
def Readable (s : State) (g : Group) (l : Fin 128) (a : DWord) (n : Nat) (bs : List Byte) : Prop :=
  ∃ L t, s.laneEnd g l.val a.toNat n .load = .loc L t ∧ bs = bytesAt s L n ∧ (∀ v k o, L ≠ .fabric v k o) ∧
    ∀ pa, L = .phys pa → s.lineFault pa = none ∧ s.farPort pa = none

/-- The texel and sample a TLD names lie in the image (R165). -/
def texelInside (r : List Byte) (x y : Word) (k : Nat) : Prop :=
  0 ≤ x.toInt ∧ x.toInt ≤ field r 0x0C 2 ∧ 0 ≤ y.toInt ∧ y.toInt ≤ field r 0x0E 2 ∧ k < 2 ^ field r 0x0A 1

/-- An entry that waits in its instruction. -/
def WaitsAt (g' : Group) (ei : Nat) (e : Entry) : Prop :=
  ∃ x, g'.entries[ei]? = some x ∧ x.pc = e.pc ∧ x.mask = e.mask ∧ x.wait.isSome = true

end Sys2Proof.Claims

/-- R161 to R166: TEX and TLD mark V[D] to V[D + 3] empty and go on, and the fill on its way holds the four filtered channels of
TEX, or the texel of TLD and zero outside the image, no byte of memory changing but for the event record of a row that reaches
THRESH (R344); a descriptor that breaks R161 traps ACCESS_VIOLATION at the byte that
breaks it. -/
def Obligations.TexturesComplete : Prop :=
  ∀ s gid ei g e (d a : BitVec 7) (gr : BitVec 6) (w : Bool) (r : List Byte),
    Acts s gid ei g e → g.role = .vector ∨ g.role = .any → g.fencing = false → s.mayLog g e = true →
    VReady g e.mask [a.toNat, a.toNat + 1, d.toNat, d.toNat + 1, d.toNat + 2, d.toNat + 3] → GReady g [gr.toNat] →
    g.fifo = [] → g.exits = [] → (s.core g.core).l1 = [] → e.mask ≠ 0 →
    (∀ l : Fin 128, e.mask.getLsbD l.val = true → Readable s g l (g.gAt gr.toNat) 32 r) →
    let x := fun (l : Fin 128) => g.vAt a.toNat l
    let y := fun (l : Fin 128) => g.vAt (a.toNat + 1) l
    let puts := fun (i : Instr) (val : Fin 128 → Nat → Word) => ∃ t g' f, exec i s = .next t ∧ GroupBecomes s t gid g' ∧
      OnlyQueue s s.mem t.mem ∧ (∀ k, (t.core k).mem = (s.core k).mem) ∧ g'.entries = moved g ei ∧ g'.fills = g.fills ++ [f] ∧
      EmptiesV g g' e.mask [d.toNat, d.toNat + 1, d.toNat + 2, d.toNat + 3] ∧
      { g' with ve := g.ve, accSeq := g.accSeq, fills := g.fills, entries := g.entries } = g ∧
      ∀ l : Fin 128, e.mask.getLsbD l.val = true → ∀ c, c < 4 → (g'.fillRegs (f.mem.getD g.accSeq) f.v).vAt (d.toNat + c) l = val l c
    (∀ (m : BitVec 4) (bs : Fin 128 → Nat × Nat → List Byte), texBad true r = none →
      (∀ l : Fin 128, e.mask.getLsbD l.val = true → ∀ p ∈ (texPoints m r (x l) (y l)).1,
        Readable s g l (texelAddr r p.1 p.2 0) (sampleBytes (field r 8 1)) (bs l p)) →
      puts (.tex d a gr m w) fun l c => (filterTexels (texPoints m r (x l) (y l)).2
        ((texPoints m r (x l) (y l)).1.map fun p => decodeTexel (field r 8 1) (bs l p))).getD c 0) ∧
    (∀ (m : BitVec 3) (bs : Fin 128 → List Byte) (val : Fin 128 → Nat → Word), texBad false r = none →
      (∀ l : Fin 128, e.mask.getLsbD l.val = true → ∀ c, c < 4 →
        (texelInside r (x l) (y l) m.toNat ∧
            Readable s g l (texelAddr r (x l).toNat (y l).toNat m.toNat) (sampleBytes (field r 8 1)) (bs l) ∧
            val l c = .ofNat 32 ((decodeTexel (field r 8 1) (bs l)).getD c 0)) ∨
          (¬ texelInside r (x l) (y l) m.toNat ∧ val l c = 0)) →
      puts (.tld d a gr m w) val) ∧
    (∀ o (l0 : Fin 128), e.mask.getLsbD l0.val = true → (∀ l : Fin 128, e.mask.getLsbD l.val = true → l0.val ≤ l.val) →
      (texBad true r = some o → ∀ m, exec (.tex d a gr m w) s =
        .next (s.takeTrap gid ei { cause := .accessViolation, addr := g.gAt gr.toNat + .ofNat 64 o, lane := l0.val })) ∧
      (texBad false r = some o → ∀ m, exec (.tld d a gr m w) s =
        .next (s.takeTrap gid ei { cause := .accessViolation, addr := g.gAt gr.toNat + .ofNat 64 o, lane := l0.val })))

/-- R139, R147, R148, R154, R155, R157: an MMA, MMAZ, ACLD or ACST that passes its checks, with a free entry in its group's
engine queue (an MMA's block as the group itself sees it, R136), joins the queue and the store FIFO, takes its range locks and asks for leave, and its ticket is on its way to
G[D]; with the queue full it waits, its ticket empty.
R153, R160: MMWAIT on a ticket whose operation has ended writes its status word to G[D] and goes on, with the core's L1
emptied; a ticket not given out yet reads status 0xFE; while the operation is under way the entry waits. -/
def Obligations.EngineOperationsAndTickets : Prop :=
  (∀ s gid ei g e (d a : BitVec 6) (w : Bool), Acts s gid ei g e → e.wait = none → g.role = .matrix ∨ g.role = .any →
     g.fencing = false → g.fifo.length < 32 → GReady g [a.toNat, d.toNat] →
     let seq := g.engSeq + 1
     let joins := fun (i : Instr) (o : EngOp) =>
       s.canLock (s.turnOf e) (lockPlan g.core (.eng gid seq) (s.opSpans g o).1 (s.opSpans g o).2) = true →
       (g.engq.length < 4 → ∃ t g', exec i s = .next t ∧ GroupBecomes s t gid g' ∧ t.mem = s.mem ∧
         g'.engq = g.engq ++ [{ o with seq := seq, born := s.tick }] ∧ g'.engSeq = seq ∧ g'.fifo = g.fifo ++ [.eng seq] ∧
         g'.fills = g.fills ++ [{ g := [(d, .ofNat 64 (seq % 2 ^ 32))] }] ∧ g'.gEmpty d.toNat = true ∧
         g'.entries = moved g ei ∧ (t.cluster (g.core / 8)).fifo = (s.cluster (g.core / 8)).fifo ++ [.eng gid seq] ∧
         { g' with engq := g.engq, engSeq := g.engSeq, fifo := g.fifo, fills := g.fills, ge := g.ge, entries := g.entries } = g) ∧
       (4 ≤ g.engq.length → ∃ t g', exec i s = .next t ∧ GroupBecomes s t gid g' ∧ g'.gEmpty d.toNat = true ∧
         g'.engq = g.engq ∧ g'.fills = g.fills ∧ WaitsAt g' ei e)
     (∀ (y x : BitVec 3) (zero : Bool) r,
       let at_ := g.gAt a.toNat
       let cr := s.crew g.crew
       let sa := s.slotOf g x.toNat
       let sb := s.slotOf g y.toNat
       s.ownBytes g (cr.sbase + at_.toNat) 64 = some r →
       at_.toNat % 64 = 0 → at_.toNat + 64 ≤ cr.params.scratch → slotCode sa < 9 → slotCode sb < 9 →
       blockBad (s.vf (g.ctx / 4096)) cr zero sa sb r = none →
       s.operandsBad g.ctx (g.core / 8) (parseBlock r) sa sb = none →
       joins (if zero then .mmaz d a y x w else .mma d a y x w)
         { seq := 0, kind := (if zero then .mmaz else .mma), blk := parseBlock r, slotA := sa, slotB := sb, lev := g.priv }) ∧
     (∀ (b : BitVec 6) (f : BitVec 3) (store : Bool), GReady g [b.toNat] → s.mayLog g e = true →
       let base := g.gAt a.toNat
       let rect := g.gAt b.toNat
       let slot := s.slotOf g f.toNat
       let cr := s.crew g.crew
       let n := accWidth slot
       slotCode slot < 5 → rectRow0 rect + rectRows rect ≤ cr.rows → rectCol0 rect + rectCols rect ≤ 1024 →
       (∀ r, r < rectRows rect → ∃ p, s.locate g 0 (rectAddr base rect n r 0).toNat (n * rectCols rect) .copyRead = some p ∧
         ∀ x y, p ≠ .fabric x y) →
       base.toNat % n = 0 → rectStride rect % n = 0 →
       joins (if store then .acst d a b f w else .acld d a b f w)
         { seq := 0, kind := (if store then .acst else .acld), slotA := slot, base := base, rect := rect, lev := g.priv })) ∧
  (∀ s gid ei g e (d a : BitVec 6) (w : Bool), Acts s gid ei g e → e.wait = none → g.role = .matrix ∨ g.role = .any →
     GReady g [a.toNat, d.toNat] →
     let t := (g.gAt a.toNat).toNat % 2 ^ 32
     let gives := fun (v : Nat) => ∃ u, exec (.mmwait d a w) s = .next u ∧ u.mem = s.mem ∧
       GroupBecomes s u gid { g.setG d.toNat (.ofNat 64 v) with entries := moved g ei } ∧ (u.core g.core).l1 = []
     (t = 0 ∨ g.engSeq < t → gives (t * 2 ^ 32 + 0xFE)) ∧
     (0 < t → t ≤ g.engSeq → (∀ o ∈ g.engq, o.seq ≠ t) → ∀ st c row, g.engDone.find? (fun x => x.1 == t) = some (t, st, c, row) →
       gives (t * 2 ^ 32 + row * 2 ^ 16 + c.toNat * 256 + st.toNat)) ∧
     (0 < t → t ≤ g.engSeq → (∀ o ∈ g.engq, o.seq ≠ t) → (∀ x ∈ g.engDone, x.1 ≠ t) → gives (t * 2 ^ 32 + 0xFF)) ∧
     (0 < t → t ≤ g.engSeq → (∃ o ∈ g.engq, o.seq = t) →
       ∃ u g', exec (.mmwait d a w) s = .next u ∧ GroupBecomes s u gid g' ∧ WaitsAt g' ei e))


/-- R141, R145, R148, R149, R155, R158, R159: the governor grants the request at its head when it fits; a granted operation at
the head of its group's queue takes one turn: a result tile lands in the accumulators, or one row of a rectangle moves (to
memory that is not the hypervisor's event queue, in which R344 may post a record); an operation that has ended leaves the queue with its status kept, its locks freed and its leave returned; one that has waited on
a link for SR.WDOG cycles in which both its sides ran ends with status 2. -/
def Obligations.EngineSteps : Prop :=
  (∀ s n gid seq rest g o, (s.cluster n).fifo = .eng gid seq :: rest → KeyMap.find s.groups gid = some g →
    g.engq.find? (fun x => x.seq == seq) = some o →
    let u := min o.charge (s.cluster n).budget
    let grant := fun (x : EngOp) => if x.seq == seq then { x with granted := some u } else x
    (s.cluster n).out + u ≤ (s.cluster n).budget →
    exec (.leaveGrant n) s = .next ((s.updCluster n fun c => { c with fifo := rest, out := c.out + u }).putGroup gid
      { g with engq := g.engq.map grant })) ∧
  (∀ s gid g o rest, KeyMap.find s.groups gid = some g → s.ctxLive g.ctx = true → g.engq = o :: rest →
    (∀ x ∈ rest, x.seq ≠ o.seq) →
    let cr := s.crew g.crew
    let cl := cr.core / 8
    (o.granted.isSome = true → o.drained = true → o.status = none →
      (o.kind = .mma ∨ o.kind = .mmaz → o.farDead = false → o.blk.chain = 0 → o.blk.srca = 0 → o.blk.srcb = 0 → o.blk.col0 + o.blk.n ≤ 1024 →
        ∃ t, exec (.engineTileTurn gid) s = .next t ∧ t.mem = s.mem ∧
          GroupBecomes s t gid { g with engq := { o with
            tile := o.tile + 1, waited := none, far := o.far.eraseDups
            status := if o.tile + 1 = o.blk.tiles then some 0 else none } :: rest } ∧
          ∀ i ∈ o.blk.tileRows o.tile, ∀ j ∈ o.blk.tileColumns o.tile, ∀ v,
            o.element cr (s.cluster cl) (s.feeds cl o) i j (o.blk.k / kStep o.slotA o.slotB) = some v →
            (t.cluster cl).accAt (cr.accKey (o.blk.row0 + i) (o.blk.col0 + j)) = v % 2 ^ 32) ∧
      (o.kind = .acld ∨ o.kind = .acst → g.rowLogged o.seq = false → ∀ pa,
        let n := accWidth o.slotA
        (∀ c, c < rectCols o.rect → s.lineFault (pa + n * c) = none ∧ cxlPort (pa + n * c) = none ∧
          ∃ x, s.asyncEnd g 0 (rectAddr o.base o.rect n o.row c).toNat n
            (if o.kind == .acld then .copyRead else .copyWrite) o.lev o.failed = .loc (.phys (pa + n * c)) x) →
        ∃ t, exec (.engineTileTurn gid) s = .next t ∧
          GroupBecomes s t gid { g with engq := { o with
            row := o.row + 1, tx := none, timed := false, status := if o.row + 1 = rectRows o.rect then some 0 else none } :: rest } ∧
          (o.kind = .acld → rectCol0 o.rect + rectCols o.rect ≤ 1024 → OnlyQueue s s.mem t.mem ∧ ∀ c, c < rectCols o.rect →
            (t.cluster cl).accAt (cr.accKey (rectRow0 o.rect + o.row) (rectCol0 o.rect + c)) =
              acldAcc o.slotA (s.mem.readN (pa + n * c) n) % 2 ^ 32) ∧
          (o.kind = .acst → (∀ k, ((t.cluster k).acc) = (s.cluster k).acc) ∧ ∀ c, c < rectCols o.rect →
            s.evq.len = 0 ∨ (s.evq.pos < s.evq.len ∧ (pa + n * rectCols o.rect ≤ s.evq.base.toNat ∨
              s.evq.base.toNat + 64 * s.evq.len ≤ pa)) →
            t.mem.readN (pa + n * c) n = acstCode o.slotA g.seed (rectRow0 o.rect + o.row) (rectCol0 o.rect + c)
              ((s.cluster cl).accAt (cr.accKey (rectRow0 o.rect + o.row) (rectCol0 o.rect + c))) % 2 ^ (8 * n))) ∧
      (∀ c, o.waited = some c → g.wdog.toNat ≤ c →
        ∃ t, exec (.linkTimeout gid o.seq) s = .next t ∧ t.mem = s.mem ∧
          GroupBecomes s t gid { g with engq := { o with status := some 2 } :: rest })) ∧
    (∀ st, o.status = some st → g.logOrder = [] →
      ∃ t, exec (.engineComplete gid) s = .next t ∧ t.mem = s.mem ∧
        GroupBecomes s t gid { g with engq := rest
                                      engDone := ((o.seq, st, o.cause, if st = 3 then o.row else 0) :: g.engDone).take 16 } ∧
        (∀ k, ∀ x ∈ (t.core k).locks, x.owner ≠ .eng gid o.seq) ∧
        (t.cluster (g.core / 8)).out = (s.cluster (g.core / 8)).out - o.granted.getD 0))

/-! ### Draw streams, fragments and method programs -/

/-- R233, R248 to R252: FPOST on an open stream sends a fragment for each lane that lies in the target and covers a sample, with
its acceptance predicate empty, and the predicate of every other lane reads true; FSEAL puts a seal in the store FIFO once the
earlier posts are acknowledged; RTSYNC of a PSN at or behind F whose fragments are applied goes on without the target's lines
in L1; RTREL goes on once every earlier access is performed, and a scope HPOL does not grant traps SCOPE_DENIED. -/
def Obligations.FragmentsArePosted : Prop :=
  ∀ s gid ei g e (gr : BitVec 6) i t (w : Bool), Acts s gid ei g e → e.wait = none → GReady g [gr.toNat] →
    s.streamOf g.ctx (g.gAt gr.toNat) = some (i, t) →
    (∀ (p : BitVec 6) (a : BitVec 7), p ≠ 0 → g.role = .vector ∨ g.role = .any → g.sealing (g.gAt gr.toNat) = false →
      s.viewsReached t = true → VReady g e.mask [a.toNat, a.toNat + 1, a.toNat + 2, a.toNat + 3] → PReady g e.mask [p.toNat] →
      let frag := fun (l : Fin 128) => g.fragment gid g.accSeq a.toNat l
      let goes := fun (l : Fin 128) => e.mask.getLsbD l.val && t.takes (frag l)
      ∃ u g', exec (.fpost p a gr w) s = .next u ∧ GroupBecomes s u gid g' ∧ u.mem = s.mem ∧ g'.entries = moved g ei ∧
        KeyMap.find u.streams i = some { t with flight := t.flight ++ ((lanesIn e.mask).filter goes).map fun l =>
          (s.shoreUnit t (frag l).x (frag l).y, frag l) } ∧
        (∀ (r : Nat) (l : Fin 128), (g'.pAt r).getLsbD l.val =
          if r = p.toNat ∧ e.mask.getLsbD l.val = true ∧ goes l = false then true else (g.pAt r).getLsbD l.val) ∧
        (∀ (r : Nat) (l : Fin 128), (vecGet g'.pe r 0).getLsbD l.val =
          ((vecGet g.pe r 0).getLsbD l.val || (r == p.toNat && goes l))) ∧
        { g' with p := g.p, pe := g.pe, posts := g.posts, accSeq := g.accSeq, entries := g.entries } = g) ∧
    (∀ (b : BitVec 6), GReady g [b.toNat] →
      (g.fencing = false → g.fifo.length < 32 → (∀ x ∈ g.posts, g.accSeq ≤ x.id) →
        exec (.fseal gr b w) s = .next (s.putGroup gid { g with
          entries := moved g ei
          fifo := g.fifo ++ [.fseal (g.gAt gr.toNat) ((g.gAt b.toNat).truncate 24) g.accSeq] })) ∧
      (let psn : BitVec 24 := (g.gAt b.toNat).truncate 24
       (psnBehind t.f psn = false → s.appliedBelow i t psn = true →
        ∃ u, exec (.rtsync gr b w) s = .next u ∧ u.mem = s.mem ∧ GroupBecomes s u gid { g with entries := moved g ei } ∧
          ∀ x ∈ (u.core g.core).l1, ∀ page ∈ t.pages, x.1 / 4096 ≠ page.2) ∧
       (psnBehind t.f psn = true → ∃ u g', exec (.rtsync gr b w) s = .next u ∧ GroupBecomes s u gid g' ∧ WaitsAt g' ei e))) ∧
    (∀ (sc : BitVec 3),
      ((s.vf (g.ctx / 4096)).grants sc.toNat = false →
        exec (.rtrel gr sc w) s = .next (s.takeTrap gid ei { cause := .scopeDenied })) ∧
      ((s.vf (g.ctx / 4096)).grants sc.toNat = true → g.fifo = [] → g.logOrder = [] → s.farOut g sc.toNat = false →
        exec (.rtrel gr sc w) s = .next (s.putGroup gid { g with entries := moved g ei })))

/-- R246, R247, R253: RTOPEN of a target that is open already gives its handle again; of one whose descriptor and programs pass
their checks, it opens a stream with F = 0 and brings its handle; with no entry free or too many method words, G[D] := 0 and
Q := true. RTCLOSE with the group's earlier posts and seals accepted closes the stream to every handle, and with the runs and the group's
stores done frees it and writes its status. -/
def Obligations.StreamsOpenAndClose : Prop :=
  ∀ s gid ei g e (d a : BitVec 6) (q : BitVec 4) (c w : Bool), Acts s gid ei g e → GReady g [a.toNat, d.toNat] →
    QReady g [q.toNat] →
    let desc := g.gAt a.toNat
    let op := fun (u : State) => exec (.rtopen d a q c w) s = .next u
    let gives := fun (v : DWord) (b : Bool) =>
      exec (.rtopen d a q c w) s = .next (s.putGroup gid { (g.setG d.toNat v).setQ q.toNat b with entries := moved g ei })
    (e.wait = none → g.fencing = false → desc.toNat % 64 = 0 →
      (∀ i t, s.streams.find? (fun x => x.2.live && x.2.ctx == g.ctx && x.2.desc == desc) = some (i, t) → t.closing = false →
        gives (.ofNat 64 (t.gen * 2 ^ 48 + i)) false) ∧
      ((∀ x ∈ s.streams, x.2.live = true → ¬ (x.2.ctx = g.ctx ∧ x.2.desc = desc)) → g.fifo = [] → g.logOrder = [] →
        ∀ t s1, s.prepareStream g desc = .ok t s1 →
          (∀ i pages s2, s1.freeStream = some i → s1.methodUsed (g.ctx / 4096) + t.methodWords ≤ 16384 →
            State.mapPlanes t t.allPages [] s1 = .ok pages s2 → (c = true → s2.absentLine pages t.allPages = none) →
            let gen := (KeyMap.at s2.streams i {}).gen
            ∃ u g', op u ∧ KeyMap.find u.groups gid = some g' ∧ g'.entries = moved g ei ∧
              KeyMap.find u.streams i = some { t with pages := pages, gen := gen } ∧
              g'.fills = g.fills ++ [{ g := [(d, .ofNat 64 (gen * 2 ^ 48 + i))], q := [(q, false)] }] ∧
              g'.v = g.v ∧ g'.p = g.p ∧ g'.g = g.g ∧ g'.q = g.q) ∧
          (s1.freeStream = none ∨ 16384 < s1.methodUsed (g.ctx / 4096) + t.methodWords →
            ∃ u, op u ∧ KeyMap.find u.groups gid = some { (g.setG d.toNat 0).setQ q.toNat true with entries := moved g ei }))) ∧
    (∀ i t, e.wait = none → s.streamOf g.ctx desc = some (i, t) →
      (∀ x ∈ g.posts, g.accSeq ≤ x.id) → (∀ h psn q, FifoOp.fseal h psn q ∈ g.fifo → g.accSeq < q) →
      (∀ x h, FifoOp.late x h ∈ g.fifo → x.seals = none) → (∀ x ∈ g.entries, ∀ y, x.wait = some y → y.seals = none) →
      ∃ u t' g', exec (.rtclose d a w) s = .next u ∧ KeyMap.find u.streams i = some t' ∧ t'.closing = true ∧ t'.held = [] ∧
        t'.flight = [] ∧ KeyMap.find u.groups gid = some g' ∧ WaitsAt g' ei e) ∧
    (∀ wt, e.wait = some wt → wt.phase = 2 → g.fifo = [] → g.logOrder = [] →
      let i := wt.x.toNat % 65536
      (∀ r ∈ s.shoreQ ++ s.shoreHeld, r.stream ≠ i) → ∀ t, KeyMap.find s.streams i = some t →
      ∃ u, exec (.rtclose d a w) s = .next u ∧ u.mem = s.mem ∧
        GroupBecomes s u gid { g.setG d.toNat (.ofNat 64 ((if t.late then 2 ^ 32 else 0) + t.f.toNat)) with
          entries := moved g ei } ∧
        KeyMap.find u.streams i = some { t with live := false, closing := false, method := [], close := []
                                                gen := if t.gen = 65535 then 1 else t.gen + 1 })

/-- R79, R124, R240 to R242, R244: a method word on a Shore unit: MFRG brings a field of the fragment, MTLD a word of the target
as the run's own buffered writes leave it, MTST buffers a write, MDSC ends the run without its writes when its predicate holds,
MEND commits every buffered write at once, leaves no core a part of an older pixel, and ends the run; a lane form computes on the run's own registers, raising no flag. -/
def Obligations.MethodWordsRun : Prop :=
  ∀ s (r : Run) rest t, s.cur = .shore → s.shoreQ = r :: rest → KeyMap.find s.streams r.stream = some t →
    let next := fun (m : Vector Word 16) => Host.Outcome.next (σ := State) (φ := Fault) (ρ := Refusal)
      { s with shoreQ := { r with m := m, pc := r.pc + 1 } :: rest }
    let m := fun (k : Nat) => vecGet r.m k 0
    let field := fun (sel : Nat) => t.fieldAt r sel
    (∀ (d : BitVec 7) (sel : BitVec 4) v,
      [(0, .ofNat 32 r.frag.x), (1, .ofNat 32 r.frag.y), (2, r.frag.psn.zeroExtend 32), (3, r.frag.cov.zeroExtend 32),
        (4, r.frag.depth), (5, r.frag.color), (6, .ofNat 32 r.sample), (7, .ofNat 32 (r.frag.color.toNat % 256)),
        (8, .ofNat 32 (r.frag.color.toNat / 256 % 256)), (9, .ofNat 32 (r.frag.color.toNat / 65536 % 256)),
        (10, (.ofNat 32 (r.frag.color.toNat / 16777216 % 256) : Word))].lookup sel.toNat = some v →
      exec (.mfrg d sel) s = next (vecMod r.m d.toNat fun _ => v)) ∧
    (∀ (d : BitVec 7) (sel : BitVec 4),
      (∀ v, lastFor r.buf (field sel.toNat) = some v → exec (.mtld d sel) s = next (vecMod r.m d.toNat fun _ => v)) ∧
      (lastFor r.buf (field sel.toNat) = none → ∀ bs s1, s.fetchBytes t.ctx (field sel.toNat) 4 t.priv .atomic = .ok bs s1 →
        exec (.mtld d sel) s = .next { s1 with
          shoreQ := { r with m := vecMod r.m d.toNat fun _ => .ofNat 32 (leNat bs), pc := r.pc + 1 } :: rest })) ∧
    (∀ (a : BitVec 7) (sel : BitVec 4), exec (.mtst a sel) s = .next { s with
      shoreQ := { r with buf := r.buf ++ [(field sel.toNat, m a.toNat)], pc := r.pc + 1 } :: rest }) ∧
    (∀ (p : BitVec 6) n,
      (((p = 0 ∨ r.p.getLsbD p.toNat = true) ↔ n = true) → exec (.mdsc p n) s = next r.m) ∧
      (¬ ((p = 0 ∨ r.p.getLsbD p.toNat = true) ↔ n = true) → r.rest ≠ [] →
        exec (.mdsc p n) s = .next { s with
          shoreQ := { stream := r.stream, isClose := r.isClose, frag := r.frag, sample := r.rest.headD 0, rest := r.rest.tail } :: rest })) ∧
    (∀ ws s1, State.commitEnds t r.buf [] s = .ok ws s1 → (r.isClose = true ∨ t.comm = false) → r.rest = [] →
      exec .mend s = .next (State.freshPixel { s1 with
        mem := ws.foldl (fun (m : Memory) x => m.writeBytes x.1 (leBytes 4 x.2.toNat)) s1.mem
        shoreQ := rest } t r.frag.x r.frag.y)) ∧
    (∀ d a b w, exec (.iadd d a b w) s = next (vecMod r.m d.toNat fun _ => m a.toNat + m b.toNat) ∧
      exec (.xor d a b w) s = next (vecMod r.m d.toNat fun _ => m a.toNat ^^^ m b.toNat) ∧
      exec (.iaddsI32 d a b w) s = next (vecMod r.m d.toNat fun _ =>
        .ofInt 32 (max (-2147483648) (min 2147483647 ((m a.toNat).toInt + (m b.toNat).toInt)))) ∧
      exec (.fadd d a b 0 w) s = next (vecMod r.m d.toNat fun _ => .ofNat 32 (fadd .f32 (m a.toNat).toNat (m b.toNat).toNat).1))

/-- R234 to R238, R249, R250: a seal within 4,096 of F is accepted: F moves past every consecutive sealed PSN; one ahead by 2²³
or more is behind F and changes nothing; one between is held. A Shore unit's view takes F, and nothing the unit holds at or
behind the view stays held. A fragment is applied at once on a commutative stream or at its unit's view, held when it is ahead
by less than 4,096 and a slot is free, refused beyond that, and lost, with the stream marked late, behind the view. -/
def Obligations.FragmentsAreOrdered : Prop :=
  (∀ s gid g h psn q rest i t, KeyMap.find s.groups gid = some g → s.ctxLive g.ctx = true →
    g.fifo = .fseal h psn q :: rest → s.streamOf g.ctx h = some (i, t) →
    let popped := s.putGroup gid { g with fifo := rest }
    let becomes := fun (t' : Stream) => exec (.fsealAccept gid) s = .next { popped with streams := KeyMap.put s.streams i t' }
    let δ := (psn - t.f).toNat
    (psn = t.f → t.f ∉ t.bitmap → t.f + 1 ∉ t.bitmap → becomes { t with f := t.f + 1 }) ∧
    (psn ≠ t.f → δ < 4096 → t.f ∉ t.bitmap → psn ∉ t.bitmap → becomes { t with bitmap := psn :: t.bitmap }) ∧
    (psn = t.f → t.f ∉ t.bitmap → t.f + 1 ∈ t.bitmap → t.bitmap.Nodup → t.f + 2 ∉ t.bitmap →
      becomes { t with f := t.f + 2, bitmap := t.bitmap.erase (t.f + 1) }) ∧
    (2 ^ 23 ≤ δ → exec (.fsealAccept gid) s = .next popped) ∧
    (4096 ≤ δ → δ < 2 ^ 23 → exec (.fsealAccept gid) s = .next s)) ∧
  (∀ s i t unit, KeyMap.find s.streams i = some t → t.live = true → s.ctxLive t.ctx = true →
    unit ∈ (s.vf (t.ctx / 4096)).shoreUnits →
    ∃ u t', exec (.frontierView i unit) s = .next u ∧ KeyMap.find u.streams i = some t' ∧ KeyMap.at t'.views unit 0 = t.f ∧
      u.groups = s.groups ∧ u.mem = s.mem ∧
      ∀ x, x ∈ t'.held ↔ x ∈ t.held ∧ ¬ (x.1 = unit ∧ (x.2.psn = t.f ∨ 2 ^ 23 ≤ (x.2.psn - t.f).toNat))) ∧
  (∀ s i t unit f rest, KeyMap.find s.streams i = some t → t.live = true → s.ctxLive t.ctx = true → t.flight = (unit, f) :: rest →
    (∀ o ∈ s.streams, o.1 ≠ i → o.2.flight = []) →
    let view := KeyMap.at t.views unit 0
    let δ := (f.psn - view).toNat
    let n := (t.covered f).length
    let out := fun (t' : Stream) => ({ s with streams := KeyMap.put s.streams i t' } : State)
    let arrives := fun (u : State) => exec (.fragmentArrival i 0) s = .next u
    (t.comm = true → arrives ((out { t with flight := rest }).applyFrag i t f)) ∧
    (t.comm = false → δ = 0 → s.slotsTaken unit true + n ≤ 512 → t.held = [] →
      arrives (((out { t with flight := rest }).ack f true).applyFrag i t { f with reserved := true })) ∧
    (t.comm = false → 0 < δ → δ < 4096 → s.slotsTaken unit false + n ≤ 7680 →
      (∀ x ∈ t.held, ¬ (x.1 = unit ∧ (x.2.psn = view ∨ 2 ^ 23 ≤ (x.2.psn - view).toNat))) →
      arrives ((out { t with flight := rest, held := t.held ++ [(unit, { f with reserved := false })] }).ack f true)) ∧
    (t.comm = false → (δ < 4096 → 0 < δ ∧ 7680 < s.slotsTaken unit false + n) → δ < 2 ^ 23 →
      (∃ p ∈ (KeyMap.at s.groups f.gid {}).posts.find? (fun p => p.id == f.post), p.pd ≠ 0) →
      arrives ((out { t with flight := rest }).ack f false)) ∧
    (t.comm = false → 2 ^ 23 ≤ δ → arrives ((out { t with flight := rest, late := true }).ack f true)))

/-! ### Hardware queues, spawning, register blocks, regatta sets -/

/-- R60, R292, R294 to R296: QPUSH puts the push in the store FIFO with its predicate empty; QPOP takes the oldest value of the
highest class that is not empty, or waits its turn with G[D] empty; QTRY takes one the same way or answers false; QPOP and QTRY
of a launch queue, and a push that the queue may not take, trap ACCESS_VIOLATION. -/
def Obligations.QueueWords : Prop :=
  ∀ s gid ei g e (a : BitVec 6) (w : Bool) i q, Acts s gid ei g e → GReady g [a.toNat] →
    s.queueOf g.ctx (g.gAt a.toNat) = some (i, q) →
    let noHandle := Host.Outcome.next (φ := Fault) (ρ := Refusal) (s.takeTrap gid ei { cause := .accessViolation })
    (∀ (qf : BitVec 4) (b : BitVec 6) (c : BitVec 3), g.fencing = false → GReady g [b.toNat] → QReady g [qf.toNat] →
      let v := g.gAt b.toNat
      let may := (q.launch = true → v.toNat % 256 = 0) ∧ (g.priv = .l → (s.ctx g.ctx).sq ≠ i)
      (¬ may → exec (.qpush qf a b c w) s = noHandle) ∧
      (may → g.fifo.length < 32 → ∃ g', exec (.qpush qf a b c w) s = .next (s.putGroup gid g') ∧
        g'.fifo = g.fifo ++ [.qpush (g.gAt a.toNat) c v qf] ∧ g'.entries = moved g ei ∧
        (∀ r, r < 16 → g'.qEmpty r = (g.qEmpty r || (r == qf.toNat && r != 0))) ∧
        { g' with fifo := g.fifo, qe := g.qe, entries := g.entries } = g)) ∧
    (∀ (d : BitVec 6) (qs : BitVec 4), GReady g [d.toNat] → QReady g [qs.toNat] →
      (q.launch = true → exec (.qpop d a w) s = noHandle ∧ exec (.qtry d a qs w) s = noHandle) ∧
      (q.launch = false →
        (∀ xs c v ys, q.elems = xs ++ (c, v) :: ys → (∀ x ∈ xs, x.1 < c) → (∀ y ∈ ys, y.1 ≤ c) →
          (∃ t g', exec (.qpop d a w) s = .next t ∧ GroupBecomes s t gid g' ∧ g'.gEmpty d.toNat = true ∧
            g'.fills = g.fills ++ [{ g := [(d, v)] }] ∧ g'.entries = moved g ei ∧
            KeyMap.find t.queues i = some { q with elems := xs ++ ys } ∧ (t.core g.core).l1 = [] ∧
            { g' with ge := g.ge, fills := g.fills, accSeq := g.accSeq, entries := g.entries } = g) ∧
          (∃ t g', exec (.qtry d a qs w) s = .next t ∧ GroupBecomes s t gid g' ∧
            g'.fills = g.fills ++ [{ g := [(d, v)], q := [(qs, true)] }] ∧ g'.entries = moved g ei ∧
            KeyMap.find t.queues i = some { q with elems := xs ++ ys } ∧ (t.core g.core).l1 = [])) ∧
        (q.elems = [] →
          (∃ t g' x, exec (.qpop d a w) s = .next t ∧ GroupBecomes s t gid g' ∧ g'.gEmpty d.toNat = true ∧
            g'.fills = g.fills ∧ g'.entries = moved g ei ∧ x.gid = gid ∧ x.d = d ∧
            KeyMap.find t.queues i = some { q with waiters := q.waiters ++ [x] }) ∧
          (∃ t g', exec (.qtry d a qs w) s = .next t ∧ GroupBecomes s t gid g' ∧ t.queues = s.queues ∧
            g'.fills = g.fills ++ [{ g := [(d, 0)], q := [(qs, false)] }] ∧ g'.entries = moved g ei))))

/-- R60, R299, R307 to R309: TSPAWN takes its place in the store FIFO; when its turn has come it spawns the record it read and
goes on, and a record whose CTRL breaks R297 traps ACCESS_VIOLATION at the record. VGIVE moves the group's top n blocks to its
crew's pool and VCLAIM takes n from there, their registers zero; a VCLAIM the pool cannot serve waits behind the earlier ones. -/
def Obligations.TasksAreSpawnedAndBlocksMove : Prop :=
  ∀ s gid ei g e, Acts s gid ei g e →
    (∀ (a : BitVec 6) w,
      (e.wait = none → g.fencing = false → g.fifo.length < 32 → GReady g [a.toNat] → (g.gAt a.toNat).toNat % 64 = 0 →
        ∃ u g', exec (.tspawn a w) s = .next u ∧ GroupBecomes s u gid g' ∧ g'.fifo = g.fifo ++ [.mark g.accSeq] ∧
          WaitsAt g' ei e) ∧
      (∀ wt, e.wait = some wt → wt.phase = 0 → e.fail = none → e.held = none → g.logOrder = [] →
        g.fifo.head? = some (.mark wt.seq) →
        let popped := fun (s1 : State) => s1.updGroup gid fun g => { g with fifo := g.fifo.filter fun o => o != .mark wt.seq }
        (∀ s1, s.spawn g.ctx wt.x g.priv (halfCluster g.core) wt.kept = .ok s1 →
          exec (.tspawn a w) s = .next ((popped s1).finish gid ei)) ∧
        (∀ r s1, wt.data = [] → wt.x.toNat % 64 = 0 → s.fetchBytes g.ctx wt.x.toNat 64 g.priv = .ok r s1 →
          (bits (field r 0 8) 47 32 ≠ 0 ∨ bit (field r 0 8) 7 = true) →
          exec (.tspawn a w) s = .next ((popped s1).takeTrap gid ei { cause := .accessViolation, addr := wt.x })))) ∧
    (∀ (n : BitVec 6) w, e.wait = none →
      (g.blocks ≤ n.toNat → exec (.vgive n w) s = .next (s.takeTrap gid ei { cause := .regRange })) ∧
      (n.toNat < g.blocks → g.fullFrom (8 * (g.blocks - n.toNat)) = true → g.logNames (8 * (g.blocks - n.toNat)) = false →
        ∃ g', exec (.vgive n w) s = .next ((s.putGroup gid g').updCrew g.crew fun c => { c with pool := c.pool + n.toNat }) ∧
          g'.blocks = g.blocks - n.toNat ∧ g'.entries = moved g ei ∧
          (∀ r l, g'.vAt r l = if 8 * (g.blocks - n.toNat) ≤ r then 0 else g.vAt r l) ∧
          { g' with v := g.v, blocks := g.blocks, entries := g.entries } = g) ∧
      (16 < g.blocks + n.toNat → exec (.vclaim n w) s = .next (s.takeTrap gid ei { cause := .regRange })) ∧
      (g.blocks + n.toNat ≤ 16 → (s.crew g.crew).claims = [] → n.toNat ≤ (s.crew g.crew).pool →
        ∃ g', exec (.vclaim n w) s = .next ((s.putGroup gid g').updCrew g.crew fun c => { c with pool := c.pool - n.toNat }) ∧
          g'.blocks = g.blocks + n.toNat ∧ g'.entries = moved g ei ∧
          (∀ r l, g'.vAt r l = if 8 * g.blocks ≤ r then 0 else g.vAt r l) ∧
          { g' with v := g.v, blocks := g.blocks, entries := g.entries } = g) ∧
      (g.blocks + n.toNat ≤ 16 → ((s.crew g.crew).claims ≠ [] ∨ (s.crew g.crew).pool < n.toNat) →
        ∀ cr, KeyMap.find s.crews g.crew = some cr →
        ∃ u g', exec (.vclaim n w) s = .next u ∧ GroupBecomes s u gid g' ∧ WaitsAt g' ei e ∧
          KeyMap.find u.crews g.crew = some { cr with claims := cr.claims ++ [(gid, g.accSeq)] }))

/-- R318, R320, R327: BOWCHK takes its place in the store FIFO; when its turn has come its status says that the set is open,
that a tile is malformed, that the tiles left form a cycle, or that the set is armed with its tiles. BOWSET puts the new bow of
its tile in the store FIFO. BOWIDLE and BOWWAKE put the change of the task's idle state there.
R316, R318, R319: removing sinks leaves nothing exactly when the tiles have an order in which every tile points down; what
it leaves otherwise is closed: each remaining tile points to a holder that another remaining tile points away from. -/
def Obligations.RegattaWordsAndSinkRemoval : Prop :=
  (∀ s gid ei g e (a b : BitVec 6) (w : Bool), Acts s gid ei g e →
     (∀ (d : BitVec 6),
       (e.wait = none → g.fencing = false → g.fifo.length < 32 → GReady g [a.toNat, b.toNat, d.toNat] → ∀ r s1,
         s.checkSet g (g.gAt a.toNat) = .ok r s1 → g.gAt b.toNat = 0 →
         ∃ u g', exec (.bowchk d a b w) s = .next u ∧ KeyMap.find u.groups gid = some g' ∧
           g'.fifo = g.fifo ++ [.mark g.accSeq] ∧ WaitsAt g' ei e) ∧
       (∀ wt, e.wait = some wt → wt.phase = 0 → e.fail = none → e.held = none → g.logOrder = [] →
         g.fifo.head? = some (.mark wt.seq) → wt.y = 0 →
         let set := wt.x.toNat % 65536
         let key := g.ctx * 65536 + set
         let base := wt.kept32 2 + 2 ^ 32 * wt.kept32 3
         let status := fun (u : State) (v : Nat) => exec (.bowchk d a b w) s = .next u ∧ ∃ g',
           KeyMap.find u.groups gid = some g' ∧ g'.gAt d.toNat = .ofNat 64 v ∧ g'.entries = moved g ei ∧
           g'.fifo = g.fifo.filter (fun o => o != .mark wt.seq)
         ((KeyMap.at s.sets key {}).opened = true → ∃ u, status u 3 ∧ u.sets = s.sets) ∧
         ((KeyMap.at s.sets key {}).opened = false → ∀ raw s1,
           State.readTable g (wt.kept32 0) base [] s = .ok raw s1 →
           (∀ i, malformedTile raw (wt.kept32 1) = some i → ∃ u, status u (i * 2 ^ 16 + 2) ∧
             (KeyMap.at u.sets key {}).checked = false) ∧
           (malformedTile raw (wt.kept32 1) = none →
             let tiles := raw.map tileOf
             let left := removeSinks raw.length ((List.range raw.length).zip tiles)
             (left ≠ [] → ∃ u, status u ((witness left).length * 2 ^ 32 + (witness left).headD 0 * 2 ^ 16 + 1) ∧
               (KeyMap.at u.sets key {}).checked = false) ∧
             (left = [] → tiles.length + s1.bowCacheUsed ((s1.unarm g.ctx set).setHome g.ctx set) ≤ 16384 →
               ∃ u t, status u 0 ∧ KeyMap.find u.sets key = some t ∧ t.checked = true ∧ t.opened = false ∧
                 t.tiles = tiles ∧ t.tasks = [] ∧ t.finished = 0))))) ∧
     (e.wait = none → g.fencing = false → g.fifo.length < 32 → GReady g [a.toNat, b.toNat] →
       let x := g.gAt a.toNat
       let y := g.gAt b.toNat
       (s.mayLog g e = true → y.toNat % 65536 = 0xFFFF → y.toNat < 2 ^ 17 → ∀ r s1, s.checkSet g x = .ok r s1 →
         (KeyMap.at s.sets (g.ctx * 65536 + x.toNat) {}).opened = false →
         ∃ u g' src, exec (.bowset a b w) s = .next u ∧ KeyMap.find u.groups gid = some g' ∧
           g'.fifo = g.fifo ++ [.bowset src x.toNat 0xFFFF (y.getLsbD 16) []] ∧ g'.entries = moved g ei ∧
           { g' with fifo := g.fifo, accSeq := g.accSeq, entries := g.entries } = g) ∧
       (x.toNat % 64 = 0 → y.toNat < 65536 → y.toNat < (s.ctx g.ctx).rslen →
         exec (.bowidle a b w) s = .next (s.putGroup gid { g with
           entries := moved g ei, fifo := g.fifo ++ [.bowidle y.toNat x true] }) ∧
         exec (.bowwake a b w) s = .next (s.putGroup gid { g with
           entries := moved g ei, fifo := g.fifo ++ [.bowidle y.toNat x false] })))) ∧
  (∀ ts : List Tile, (∀ t ∈ ts, t.holdA ≠ t.holdB) →
     let left := removeSinks ts.length ((List.range ts.length).zip ts)
     (left = [] ↔ ∃ rank : DWord → Nat, ∀ t ∈ ts, rank t.pointsTo < rank t.other) ∧
     ∀ t ∈ left, ∃ u ∈ left, u.2.other = t.2.pointsTo)


/-! ### Fills, drains, copies, waits that expire, deferred traps -/

namespace Sys2Proof.Claims
open Sys2Proof.Machine

/-- Group `gid` is `g`, and its context runs. -/
structure Runs (s : State) (gid : Nat) (g : Group) : Prop where
  group : KeyMap.find s.groups gid = some g
  live : s.ctxLive g.ctx = true

/-- The group's store FIFO drains `o` next, which is no place that an entry waits at, leaving `rest`. -/
structure Drains (s : State) (gid : Nat) (g : Group) (o : FifoOp) (rest : List FifoOp) : Prop where
  runs : Runs s gid g
  fifo : g.fifo = o :: rest
  place : (∀ seq, o ≠ .mark seq) ∧ ∀ seq ps, o ≠ .ste seq ps

/-- A place in physical memory that is written there and nowhere else: its line good, no port before it, and its channel not
retraining. -/
def GoodPlace (s : State) (pa : Nat) : Prop := s.lineFault pa = none ∧ s.farPort pa = none

/-- Entry `ei` of a group that runs has waited to the limit it was given. -/
structure Expires (s : State) (gid ei : Nat) (g : Group) (e : Entry) (w : Wait) : Prop where
  runs : Runs s gid g
  entry : g.entries[ei]? = some e
  wait : e.wait = some w
  lasted : w.limit ≤ s.cycle - w.start
  handled : g.tinfo.getLsbD 3 = false ∧ (s.crew g.crew).params.handler ≠ 0

/-- The group stands in its handler for a cause, with its address, and holds the PC. -/
def InHandlerFor (s : State) (g g' : Group) (cause : Nat) (addr pc : DWord) : Prop :=
  g'.entries = [{ pc := (s.crew g.crew).params.handler, pri := 15, mask := allLanes }] ∧ g'.priv = .s ∧
    g'.tcause = .ofNat 32 cause ∧ g'.taddr = addr ∧ g'.tpc = pc ∧ g'.tinfo.getLsbD 3 = true

end Sys2Proof.Claims

/-- R62, R277, R342: a fill whose request no slice holds back lands, no lane having ended: its registers take their values and turn full, and no other register of the group changes. -/
def Obligations.FillsLand : Prop :=
  ∀ s gid g idx f ext, Runs s gid g → g.fills[idx]? = some f → f.tx = none → s.fillHeld gid f = false → g.exits = [] →
    (f.v.map fun x => x.1).Nodup → (f.g.map fun x => x.1).Nodup → (f.q.map fun x => x.1).Nodup →
    ∃ g', exec (.fill gid idx ext) s = .next (s.putGroup gid g') ∧ g'.fills = g.fills.eraseIdx idx ∧
      (∀ x ∈ f.v, ∀ l : Fin 128, x.2.1.getLsbD l.val = true →
        g'.vAt x.1.toNat l = x.2.2[l] ∧ (vecGet g'.ve x.1.toNat 0).getLsbD l.val = false) ∧
      (∀ (r : Nat) (l : Fin 128), (∀ x ∈ f.v, x.1.toNat = r → x.2.1.getLsbD l.val = false) →
        g'.vAt r l = g.vAt r l ∧ (vecGet g'.ve r 0).getLsbD l.val = (vecGet g.ve r 0).getLsbD l.val) ∧
      (∀ x ∈ f.g, g'.gAt x.1.toNat = x.2 ∧ g'.gEmpty x.1.toNat = false) ∧
      (∀ r : BitVec 6, (∀ x ∈ f.g, x.1 ≠ r) → g'.gAt r.toNat = g.gAt r.toNat ∧ g'.gEmpty r.toNat = g.gEmpty r.toNat) ∧
      (∀ x ∈ f.q, (x.1 ≠ 0 → g'.qAt x.1.toNat = x.2) ∧ g'.qEmpty x.1.toNat = false) ∧
      (∀ r : BitVec 4, (∀ x ∈ f.q, x.1 ≠ r) → g'.qAt r.toNat = g.qAt r.toNat ∧ g'.qEmpty r.toNat = g.qEmpty r.toNat) ∧
      { g' with v := g.v, ve := g.ve, g := g.g, ge := g.ge, q := g.q, qe := g.qe, fills := g.fills } = g

/-- R192, R195, R198, R200, R201, R206, R217, R221, R295, R327: the head of a store FIFO is performed: a store writes its bytes,
and a store to a scratchpad or an STF fills the tags of its words, an atomic of one lane its operation's result, a copy and an engine operation become ready, an arrival counts and tests its barrier,
a contribution opens its round, a push joins its queue, where no QPOP waits and it is not full, and answers so, a task's idle
state changes.
R206, R207: a copy of one lane that has left the store FIFO, and whose line may be written, writes its bytes to its
destination, and its queue entry and its range locks are free. Nothing else of memory changes, but for the event record of a row
that reaches THRESH (R344). -/
def Obligations.StoresAndCopiesLand : Prop :=
  (∀ s gid g o rest, Drains s gid g o rest →
     let popped := s.putGroup gid { g with fifo := rest }
     (∀ src ps (pa : StorePart → Nat), o = .store src ps → g.farBefore src.acc = false →
       (∀ p ∈ ps, p.loc = .phys (pa p) ∧ GoodPlace s (pa p)) →
       ∃ u, exec (.storeDrain gid) s = .next u ∧ GroupBecomes s u gid { g with fifo := rest } ∧
         OnlyQueue s (ps.foldl (fun (m : Memory) p => m.writeBytes (pa p) p.bytes) s.mem) u.mem) ∧
     (∀ src (p : StorePart) c off, (o = .store src [p] ∧ g.farBefore src.acc = false) ∨ (o = .stf src [p] ∧ g.logOrder = []) →
       p.loc = .scratch c off → p.bytes ≠ [] →
       ∃ u, exec (.storeDrain gid) s = .next u ∧ GroupBecomes s u gid { g with fifo := rest } ∧ u.mem = s.mem ∧
         (u.core c).mem = (s.core c).mem.writeBytes off p.bytes ∧
         ∀ x, x ∈ (u.core c).emptyTags ↔ x ∈ (s.core c).emptyTags ∧ ¬ (off / 4 ≤ x ∧ x ≤ (off + p.bytes.length - 1) / 4)) ∧
     (∀ src aop (x : AtomLane) d pa, o = .atom src aop [x] d → g.farBefore src.acc = false → x.loc = .phys pa → GoodPlace s pa →
       let n := if aopWide aop.toNat then 8 else 4
       ∃ u, exec (.storeDrain gid) s = .next u ∧
         OnlyQueue s (s.mem.writeBytes pa (leBytes n (aopApply aop.toNat (.ofNat 64 (s.mem.readN pa n)) x.x x.y).toNat)) u.mem) ∧
     (∀ id c, o = .copy id → KeyMap.find (s.core g.core).copies id = some c →
       ∃ u, exec (.storeDrain gid) s = .next u ∧ GroupBecomes s u gid { g with fifo := rest } ∧
         KeyMap.find (u.core g.core).copies id = some { c with ready := true }) ∧
     (∀ seq, o = .eng seq →
       let drains := fun (x : EngOp) => if x.seq == seq then { x with drained := true } else x
       exec (.storeDrain gid) s = .next (s.putGroup gid { g with fifo := rest, engq := g.engq.map drains })) ∧
     (∀ h tx relaxed core i b, o = .arrive h tx relaxed → s.barrierOf g h = some (core, i, b) →
       (relaxed = true ∨ (g.logOrder = [] ∧ s.farOut g b.scope.toNat = false)) →
       ∃ u, exec (.barrierArrival gid) s = .next u ∧ GroupBecomes s u gid { g with fifo := rest } ∧
         (b.tx + tx = 0 → b.a + 1 = b.e → KeyMap.find (u.core core).barriers i = some
           { b with tx := 0, a := 0, done := b.done + 1 }) ∧
         (b.a + 1 < b.e ∨ b.tx + tx ≠ 0 → KeyMap.find (u.core core).barriers i = some
           { b with tx := b.tx + tx, a := b.a + 1 })) ∧
     (∀ d op x key, o = .nred d op x → s.slotKey g.ctx d = some key → KeyMap.find s.slots key = none →
       (∀ w ∈ s.nrwaits, w.slot ≠ key) →
       let count := d.toNat / 2 ^ 32 % 2 ^ 16
       let slot : RedSlot :=
         { ctx := g.ctx, op, count, given := [(d.toNat / 2 ^ 16 % 2 ^ 16, x)]
           result := if count = 1 then some (true, x) else none }
       exec (.nredContribution gid) s = .next { popped with slots := KeyMap.put s.slots key slot }) ∧
     (∀ h cls v qf i q, o = .qpush h cls v qf → g.logOrder = [] → s.queueOf g.ctx h = some (i, q) → q.waiters = [] →
       let full := decide (q.cap ≤ q.elems.length)
       ∃ u, exec (.storeDrain gid) s = .next u ∧
         GroupBecomes s u gid { g with fifo := rest, fills := g.fills ++ [{ q := [(qf, full)] }] } ∧
         KeyMap.find u.queues i = some (if full then q else { q with elems := q.elems ++ [(cls.toNat, v)] })) ∧
     (∀ set r idle t, o = .bowidle set r idle → KeyMap.find s.sets (g.ctx * 65536 + set) = some t →
       let change := fun (k : RTask) => if k.record == r && !k.finished then { k with idle } else k
       let t' := { t with tasks := t.tasks.map change }
       exec (.storeDrain gid) s = .next { popped with sets := KeyMap.put s.sets (g.ctx * 65536 + set) t' })) ∧
  (∀ s core idx id (c : CopyOp) g (l : Fin 128) a b pa pb x y, (s.core core).copies[idx]? = some (id, c) →
     KeyMap.find (s.core core).copies id = some c → Runs s c.gid g → c.ready = true → c.held = none → c.bar = none →
     c.wait = none → c.far = none → cxlPort pa = none → cxlPort pb = none →
     c.lanes = [(l, a, b)] → s.asyncEnd g l.val a.toNat c.n .copyRead c.lev c.failed = .loc (.phys pa) x →
     s.asyncEnd g l.val b.toNat c.n .copyWrite c.lev c.failed = .loc (.phys pb) y → s.lineFault pb = none →
     ∃ u, exec (.copyPerformed core idx) s = .next u ∧ OnlyQueue s (s.mem.writeBytes pb (s.mem.bytes pa c.n)) u.mem ∧
       (∀ k ∈ (u.core core).copies, k.1 ≠ id) ∧ ∀ k, ∀ o ∈ (u.core k).locks, o.owner ≠ .copy c.gid id)


/-- R72, R199, R219, R251, R309, R371, R383: a wait that has lasted the limit SR.WDOG set when it began ends in its trap: a
BARWAIT in BARRIER_TIMEOUT with the barrier's counts captured, an LDF or STE in TAG_TIMEOUT at its first unserved lane's
address, an RTSYNC in BARRIER_TIMEOUT with the frontier, a VCLAIM in BARRIER_TIMEOUT with its blocks. -/
def Obligations.WaitsExpire : Prop :=
  ∀ s gid ei g e w, Expires s gid ei g e w →
    let traps := fun (i : Instr) (cause : Nat) (addr : DWord) (more : State → Group → Prop) =>
      ∃ u g', exec i s = .next u ∧ KeyMap.find u.groups gid = some g' ∧ InHandlerFor s g g' cause addr e.pc ∧ more u g'
    (∀ a b x core i bar, w.instr = .barwait a b x → s.barrierOf g w.x = some (core, i, bar) →
      (BitVec.ofNat 32 w.y.toNat - bar.done).toNat < 2 ^ 31 →
      traps (.barrierTimeout gid ei) 0x0C w.x fun _ g' =>
        g'.tbarae = .ofNat 32 (bar.a * 65536 + bar.e) ∧ g'.tbartx = bar.done ++ BitVec.ofInt 32 bar.tx) ∧
    (∀ p rest, w.phase = 7 → w.left = p :: rest →
      traps (.tagTimeout gid ei) 0x0D p.2.2.2 fun _ g' => g'.tbarae = 0 ∧ g'.tbartx = 0) ∧
    (∀ a b x i t, w.instr = .rtsync a b x → s.streamOf g.ctx w.x = some (i, t) →
      traps (.rtsyncTimeout gid ei) 0x0C (t.f.zeroExtend 64) fun _ g' => g'.tbarae = 0 ∧ g'.tbartx = 0) ∧
    (∀ n x cr, w.instr = .vclaim n x → KeyMap.find s.crews g.crew = some cr →
      traps (.vclaimTimeout gid ei) 0x0C w.x fun u g' => g'.tbarae = 0 ∧ g'.tbartx = 0 ∧
        KeyMap.find u.crews g.crew = some { cr with claims := cr.claims.filter fun y => y != (gid, w.seq) })

/-- R266, R279, R382: an entry that has starved for 1,024 issues of its group becomes due; a yield mark ends after 64 cycles; a
logged access of one lane that is lost becomes a deferred trap of its group, with SR.TPC 0, its lane, and the access's own PC in
SR.TLOGPC. -/
def Obligations.DeferredTrapsAndMarks : Prop :=
  ∀ s gid g, Runs s gid g →
    (∀ ei e, g.entries[ei]? = some e → 1024 ≤ e.starve → e.due = false →
      exec (.entryDue gid ei) s = .next (s.putGroup gid { g with
        entries := setAt g.entries ei fun x => { x with due := true } })) ∧
    (∀ ei e, g.entries[ei]? = some e → e.yield = true → 64 ≤ s.cycle - e.yieldAt →
      exec (.yieldMarkClear gid ei) s = .next (s.putGroup gid { g with
        entries := setAt g.entries ei fun x => { x with yield := false } })) ∧
    (∀ i rest (en : LogEntry) l c at_, g.tinfo.getLsbD 3 = false → g.finalExit = false →
      (s.crew g.crew).params.handler ≠ 0 → g.logOrder = i :: rest → vecGet g.oplog i none = some en → en.eng = none →
      en.lanes = [l] → l.wait = .lost c at_ → i < 8 →
      ∃ g', exec (.deferredTrap gid) s = .next (s.putGroup gid g') ∧ InHandlerFor s g g' c.code l.addr 0 ∧
        (∀ k, g'.tlanes.getLsbD k = (k == l.lane.val)) ∧ g'.tlogpc = en.src.pc ∧ g'.trep = 0 ∧
        g'.tinfo = .ofNat 32 (256 * l.lane.val + 16 * i + 12 + g.priv.code) ∧ g'.saved.length = g.entries.length)

/-! ### Launches, crews, tasks, heats -/

namespace Sys2Proof.Claims
open Sys2Proof.Machine

/-- A heat of task `x` has been taken from set `t`, giving `t'`: its tiles turned, one heat less, and the heat counted. -/
def HeatTaken (t t' : RSet) (x : RTask) (pass : Bool) : Prop :=
  t'.tiles.length = t.tiles.length ∧
  (∀ (i : Nat) (k : Tile), t.tiles[i]? = some k → t'.tiles[i]? = some { k with bow := k.bow != x.tiles.contains i }) ∧
  (∃ y ∈ t'.tasks, y.record = x.record ∧ y.heats = x.heats - 1 ∧ y.firing = false ∧ y.ended = none) ∧
  t'.passes = t.passes + (if pass then 1 else 0) ∧ t'.fires = t.fires + (if pass then 0 else 1)

/-- A group of a crew that has just started (R61, R76). -/
def Started (g' : Group) (crew ctx core blocks : Nat) (pc g0 g1 : DWord) : Prop :=
  g'.entries = [{ pc := pc, mask := allLanes }] ∧ g'.crew = crew ∧ g'.ctx = ctx ∧ g'.core = core ∧ g'.blocks = blocks ∧
    g'.gAt 0 = g0 ∧ g'.gAt 1 = g1 ∧ (∀ r, 2 ≤ r → g'.gAt r = 0) ∧ (∀ r l, g'.vAt r l = 0) ∧ g'.arith = 0 ∧ g'.fifo = [] ∧
    g'.saved = [] ∧ g'.tinfo = 0

end Sys2Proof.Claims

/-- R61, R285, R288, R291, R293, R299, R300, R302, R304, R305, R322 to R324: the dispatcher accepts, refuses or drops the next
launch record, places the first launch's next gang on cores it fits, and starts a staggered crew in its turn; a core starts the
head of its task queue with a crew of one, an aged task becomes stealable, an idle core takes the oldest stealable task that no
nearer idle core reaches for, a copy task of one unit moves its bytes and completes (memory else unchanged but for the event record of a row that
reaches THRESH, R344); a regatta dispatcher takes a heat of the first eligible
task, as a pass if the task was idle when it became eligible and as a firing otherwise, and the end of a firing takes its heat. -/
def Obligations.LaunchesAndTasksRun : Prop :=
  (∀ s vf i q cls record, s.nextLaunchOf vf = some (i, q, cls, record) → KeyMap.find s.queues i = some q →
    (KeyMap.find s.vfs vf).isSome = true →
    (∀ x ∈ (s.vf vf).acceptHeld, ¬ (x.1 = i ∧ x.2.1 = cls ∧ x.2.2.1 = record)) →
    let lev : Priv := if (s.ctx q.ctx).sq = i then .s else .l
    let taken := fun (u : State) => exec (.launchAccept vf) s = .next u ∧
      KeyMap.find u.queues i = some { q with elems := q.elems.erase (cls, record) }
    (record.toNat % 256 ≠ 0 → ∃ u, taken u ∧ u.launches = s.launches) ∧
    (record.toNat % 256 = 0 → ∀ r s1, s.fetchBytes q.ctx record.toNat 256 lev = .ok r s1 →
      (∀ b, judge (s.vf vf) record r = .error b → ∃ u, taken u ∧ u.launches = s.launches) ∧
      (∀ p, judge (s.vf vf) record r = .ok p → ∃ u, taken u ∧ u.nextLaunch = s.nextLaunch + 1 ∧
        KeyMap.find u.launches s.nextLaunch = some { ctx := q.ctx, params := p, priv := lev, cls := cls, queue := i, crews := p.crews } ∧
        (u.vf vf).order = (s.vf vf).order ++ [s.nextLaunch]))) ∧
  (∀ s vf id l places s1, s.headLaunch vf = some (id, l) → places.length = l.params.gang →
    (∀ c ∈ places, c / 8 ∈ (s.vf vf).clusters) → l.params.bound l.placed places = true →
    s.placeCrews id l (places.zipIdx.map fun x => (x.1, l.placed + x.2)) = some s1 →
    ∃ u, exec (.launchPlace vf places) s = .next u ∧ u.groups = s1.groups ∧ u.crews = s1.crews ∧
      KeyMap.find u.launches id = some { l with placed := l.placed + places.length, state := 2 }) ∧
  (∀ s crew c, KeyMap.find s.crews crew = some c → s.staggerDue crew c = true →
    exec (.staggerStart crew) s = .next { s with crews := KeyMap.put s.crews crew { c with started := true } }) ∧
  (∀ s core t rest, (s.core core).tasks = t :: rest → s.ctxLive t.ctx = true →
    (t.copy = none → s.fits t.crewParams core = true → t.set = none → t.kind = 0 → s.pending = [] → t.spilled = false →
      (∀ x ∈ rest, x.spilled = false) →
      ∀ i, i < 96 → KeyMap.find s.groups (96 * core + i) = none →
        (∀ j, j < i → (KeyMap.find s.groups (96 * core + j)).isSome = true) →
        ∃ u g' cr, exec (.taskStart core) s = .next u ∧ KeyMap.find u.groups (96 * core + i) = some g' ∧
          Started g' s.nextCrew t.ctx core t.params.blocks t.entry t.arg t.record ∧ g'.priv = .l ∧
          KeyMap.find u.crews s.nextCrew = some cr ∧ cr.groups = [96 * core + i] ∧ cr.origin = .task t.record t.succ ∧
          cr.core = core ∧ cr.ctx = t.ctx ∧ (u.core core).tasks = rest ∧ u.nextCrew = s.nextCrew + 1 ∧
          (∀ k, k ≠ 96 * core + i → KeyMap.find u.groups k = KeyMap.find s.groups k) ∧
          ∀ a, cr.sbase ≤ a → a < cr.sbase + t.params.scratch → (u.core core).mem.read a = 0) ∧
    (∀ d, t.copy = some d → s.pending = [] → t.spilled = false → (∀ x ∈ rest, x.spilled = false) →
      s.canLock s.tick (lockPlan core (.task core (s.core core).nextCopy) [copySpan core t.ctx d.1 d.2.2]
        [copySpan core t.ctx d.2.1 d.2.2]) = true →
      ∃ u, exec (.taskStart core) s = .next u ∧ (u.core core).tasks = rest ∧
        (u.core core).copyTasks = (s.core core).copyTasks ++ [{ id := (s.core core).nextCopy, record := t.record
                                                                ctx := t.ctx, src := d.1, dst := d.2.1, size := d.2.2
                                                                succ := t.succ }])) ∧
  (∀ s core idx t, (s.core core).tasks[idx]? = some t → s.ctxLive t.ctx = true → t.stealable = false → t.nosteal = false →
    t.copy = none → (s.ctx t.ctx).age ≤ s.cycle - t.since →
    exec (.taskStealable core idx) s = .next (s.updCore core fun c =>
      { c with tasks := setAt c.tasks idx fun t => { t with stealable := true } })) ∧
  (∀ s core n v k t, s.vfOfCore core = some (n, v) → s.stealFor v core = some (k, t) →
    (∀ c ∈ v.clusters, ∀ i, i < 8 → 8 * c + i ≠ core → s.idleFor (8 * c + i) t = true →
      v.nearer (t.home / 2) (8 * c + i) core = false) →
    exec (.taskSteal core) s = .next ((s.dequeue k t).startTask t core).retryPlaces) ∧
  (∀ s core idx t pa pb x y, (s.core core).copyTasks[idx]? = some t → s.ctxLive t.ctx = true → t.held = none →
    t.size = 16 → t.done = 0 → t.succ = 0 → t.firstFail = none → s.taskEnd t t.src .copyRead = .loc (.phys pa) x →
    s.taskEnd t t.dst .copyWrite = .loc (.phys pb) y → s.lineFault pb = none →
    ∃ u, exec (.copyTaskComplete core idx) s = .next u ∧ OnlyQueue s (s.mem.writeBytes pb (s.mem.bytes pa 16)) u.mem ∧
      (∀ z ∈ (u.core core).copyTasks, z.id ≠ t.id) ∧ ∀ k, ∀ o ∈ (u.core k).locks, o.owner ≠ .task core t.id) ∧
  (∀ s k t x, KeyMap.find s.sets k = some t → s.ctxLive (k / 65536) = true → (t.tasks.map fun z => z.record).Nodup → x ∈ t.tasks →
    (∀ rest idle, t.eligible = (x.record, idle) :: rest →
      (idle = true → 1 < x.heats → ∃ u t', exec (.heatDispatch k) s = .next u ∧ u.mem = s.mem ∧
        KeyMap.find u.sets k = some t' ∧ HeatTaken t t' x true) ∧
      (idle = false → ∃ u, exec (.heatDispatch k) s = .next u ∧ u.mem = s.mem ∧
        KeyMap.find u.sets k = some { t with eligible := rest, tasks := t.tasks.map fun y =>
          if y.record = x.record then { y with firing := true } else y })) ∧
    (∀ i pass, t.tasks[i]? = some x → x.ended = some pass → 1 < x.heats →
      ∃ u t', exec (.heatEnd k i) s = .next u ∧ u.mem = s.mem ∧ KeyMap.find u.sets k = some t' ∧ HeatTaken t t' x pass))

/-! ### Page rings, ports, inbound requests -/

namespace Sys2Proof.Claims
open Sys2Proof.Machine

/-- Every lane of a transaction stands in the group's operand log with a wait, and the transaction is gone. -/
def TxLogged (u : State) (t : Tx) (w : LogWait) : Prop :=
  (∀ x ∈ u.txs, x.id ≠ t.id) ∧ ∃ g', KeyMap.find u.groups t.gid = some g' ∧ (∀ f ∈ g'.fills, f.tx ≠ some t.id) ∧
    ∃ i en, vecGet g'.oplog i none = some en ∧ ∀ x ∈ t.lanes, ∃ l ∈ en.lanes, l.lane = x.1 ∧ l.wait = w

/-- The host interface is open. -/
def HostOpen (s : State) : Prop := (vecGet s.dies 0 {}).mboot = 7 ∧ s.frozen = false

end Sys2Proof.Claims

/-- R358, R359, R361, R362, R381, R404, R411: the oldest page request not yet written takes a tag and the ring's next place; a
page reply with a known tag and a legal STATUS is acted on and its place freed, one with an unknown tag only freed and recorded;
an access that times out is logged for one retry and lost at the second, one that is refused is lost; a port that goes down, comes up or
is lost is so, with nothing left under way on a port that is down; an inbound request within one page is served, refused or, of a frozen
device, answered BUSY. -/
def Obligations.PageRingsAndPorts : Prop :=
  (∀ s vf v q tag, KeyMap.find s.vfs vf = some v → v.requests.find? (fun q => q.tag.isNone) = some q → tag < 1024 →
    (∀ x ∈ v.requests, x.tag ≠ some tag) → (∀ j, j < tag → ∃ x ∈ v.requests, x.tag = some j) →
    let a := v.prq.base.toNat + 32 * v.prq.pos
    bit (s.mem.readN (a + 0x1C) 4) 31 = false →
    let bs := leBytes 8 q.ipa ++ leBytes 8 q.va.toNat ++ leBytes 2 q.asid ++ leBytes 2 q.ctx ++ leBytes 1 q.kind ++
      leBytes 1 q.reason ++ leBytes 2 q.core ++ leBytes 4 tag ++ leBytes 4 0x80000000
    ∃ u v', exec (.pageRequest vf) s = .next u ∧ u.mem = s.mem.writeBytes a bs ∧ KeyMap.find u.vfs vf = some v' ∧
      v'.prq = { v.prq with pos := (v.prq.pos + 1) % max 1 v.prq.len } ∧ { q with tag := some tag } ∈ v'.requests ∧
      u.sent = .notice vf :: s.sent) ∧
  (∀ s vf v, KeyMap.find s.vfs vf = some v →
    let a := v.rpqbase.toNat + 16 * v.rpqpos
    let ph := s.mem.readN (a + 8) 8
    let tag := s.mem.readN a 4
    let status := (s.mem.read (a + 4)).toNat
    let s1 : State := { s with
      mem := s.mem.writeN (a + 8) 8 (ph - 2 ^ 63)
      vfs := KeyMap.put s.vfs vf { v with rpqpos := (v.rpqpos + 1) % max 1 v.rpqlen } }
    let ends := fun (u : State) => 1 ≤ v.rpqlen →
      bit (u.mem.readN ((u.vf vf).rpqbase.toNat + 16 * (u.vf vf).rpqpos + 8) 8) 63 = false →
      exec (.replyDoorbell vf) s = .next u
    (bit ph 63 = false → exec (.replyDoorbell vf) s = .next s) ∧
    (ph = 2 ^ 63 → s.mem.readN (a + 5) 3 = 0 →
      (∀ q, v.requests.find? (fun q => q.tag == some tag) = some q → status ≤ 3 → ends (s1.reply vf q status)) ∧
      ((∀ q ∈ v.requests, q.tag ≠ some tag) → tag ∉ v.retired → ends (s1.postErr { kind := 0x11, vf := vf })))) ∧
  (∀ s id t g, s.txs.find? (fun t => t.id == id) = some t → KeyMap.find s.groups t.gid = some g → t.lanes ≠ [] →
    t.eng = none → t.copy = none →
    (∃ j, j < 8 ∧ vecGet g.oplog j none = none) →
    (64 ≤ t.port → exec (.completionTimeout id) s = .next s) ∧
    (t.port < 64 → ∃ u, exec (.completionTimeout id) s = .next u ∧
      TxLogged u t (if t.retried then .lost .memoryUnavailable s.tick else .port t.port true)) ∧
    ∃ u, exec (.remoteRefusal id) s = .next u ∧ TxLogged u t (.lost .accessViolation s.tick)) ∧
  (∀ s p,
    (∃ u, exec (.linkDown p) s = .next u ∧ KeyMap.find u.ports p = some { up := false } ∧ ∀ t ∈ u.txs, t.port ≠ p) ∧
    (∃ u, exec (.linkUp p) s = .next u ∧ KeyMap.find u.ports p = some { up := true }) ∧
    (s.portUp p = false → ∃ u, exec (.linkLostTimeout p) s = .next u ∧ u.mem = s.mem ∧
      KeyMap.find u.ports p = some { up := false, lost := true })) ∧
  (∀ s id, exec (.fabricBusy id) s = .next s) ∧
  (∀ s vf window endpt, ∃ u, exec (.redirect vf window endpt) s = .next u ∧
    ∀ t ∈ u.txs, ¬ (t.vf = vf ∧ t.window = window ∧ t.cxl = false)) ∧
  (∀ s endpt srcVf vf kind addr data,
    let comes := exec (.inboundFabricRequest endpt srcVf vf kind addr data) s
    (s.frozen = true → comes = .next (s.send (.busy endpt))) ∧
    (s.frozen = false → (endpt, srcVf) ∉ (s.vf vf).peers → comes = .next (s.send (.reply endpt false []))) ∧
    (s.frozen = false → (endpt, srcVf) ∈ (s.vf vf).peers → addr.toNat < 2 ^ 55 → (s.vf vf).mig = none → ∀ pa e path,
      let n := if kind = 0 then leNat data % 65536 else if kind = 1 then data.length else 1
      0 < n → addr.toNat % 65536 + n ≤ 65536 → s.stage2 vf addr.toNat = .ok pa e path →
      (fabAllows kind e = false → comes = .next (s.send (.reply endpt false []))) ∧
      (fabAllows kind e = true → (∀ x, pa / 64 ≤ x → x ≤ (pa + n - 1) / 64 → s.lineFault (64 * x) = none) →
        (kind = 0 → comes = .next (s.send (.reply endpt true (s.mem.bytes pa n)))) ∧
        (kind = 1 → comes = .next ({ s with mem := s.mem.writeBytes pa data }.send (.reply endpt true []))))))

/-! ### Host commands -/

/-- R292, R335, R337 to R340, R343, R345, R348, R349, R360, R362, R363, R426, R432, R433: with the host interface not open none
of the commands named is carried out; with it open, each command that configures a virtual function, a context, a region, a ring,
a window or a queue has its effect where the conditions named hold, and the refusals named change nothing but the answer and, for
a context record, its STATUS. A full queue is answered with the reason's row in R433's table (the numbers are the model's, log 64). -/
def Obligations.HostCommandsConfigure : Prop :=
  (∀ s, ¬ HostOpen s →
    (∀ vf w, exec (.setSlices vf w) s = .next s) ∧ (∀ vf h, exec (.setHpol vf h) s = .next s) ∧
    (∀ vf n, exec (.setCtxmax vf n) s = .next s) ∧ (∀ vf c n, exec (.setBudget vf c n) s = .next s) ∧
    (∀ vf r, exec (.createContext vf r) s = .next s) ∧ (∀ vf n, exec (.attestationReport vf n) s = .next s) ∧
    (∀ r o b, exec (.assignRegion r o b) s = .next s) ∧ (∀ vf r, exec (.setS2root vf r) s = .next s) ∧
    (∀ b n, exec (.setEventQueue b n) s = .next s) ∧ (∀ vf p, exec (.setPeers vf p) s = .next s)) ∧
  (∀ s vf, HostOpen s →
    let refused := Host.Outcome.next (φ := Fault) (ρ := Refusal) (s.send (.answer false 0))
    let sets := fun (i : Instr) (v : VF) => exec i s = .next ({ s with vfs := KeyMap.put s.vfs vf v }.send (.answer true 0))
    let v := s.vf vf
    (∀ w, 32 ≤ vf ∨ (∃ o ∈ s.vfs, o.1 ≠ vf ∧ o.2.slices &&& w ≠ 0) ∨ (w = 0 ∧ ∃ c ∈ s.contexts, c.1 / 4096 = vf) ∨
      (v.slices ≠ w ∧ s.vfIdle vf = false) → exec (.setSlices vf w) s = refused) ∧
    (∀ w : Word, vf < 32 → (∀ o ∈ s.vfs, o.1 ≠ vf → o.2.slices &&& w = 0) → (∀ c, c < 32 → w.getLsbD c = true → c ∉ s.hidden) →
      (w = 0 → ∀ c ∈ s.contexts, c.1 / 4096 ≠ vf) → (v.slices = w ∨ s.vfIdle vf = true) →
      (v.slices &&& ~~~ w = 0 ∨ s.slicesFree vf (slicesList (v.slices &&& ~~~ w)) = true) →
      let v' := if w = 0 then v.bare else { v with slices := w, moves := if v.slices = 0 then 0 else v.moves }
      let after : State := { s with vfs := KeyMap.put s.vfs vf v' }
      after.ctxTotal ≤ 4096 → after.budgetsOk = true →
      ∃ u, exec (.setSlices vf w) s = .next u ∧ u.sent = .answer true 0 :: s.sent ∧ (u.vf vf).slices = w ∧ u.mem = s.mem ∧
        (∀ c, c < 32 → v.slices.getLsbD c ≠ w.getLsbD c → ∀ i, i < 8 → u.core (8 * c + i) = {}) ∧
        (w = 0 → ∀ r ∈ v.regions ++ v.saveRegions, r ∈ u.fwRegions)) ∧
    (∀ h : DWord, vf < 32 → bits h.toNat 63 16 = 0 → bits h.toNat 7 2 = 0 → bits h.toNat 15 8 ≤ 12 →
      (v.hpol &&& ~~~ h &&& 3 = 0 ∨ s.noLaunches vf = true) →
      ∃ u, exec (.setHpol vf h) s = .next u ∧ (u.vf vf).hpol = h ∧ u.sent = .answer true 0 :: s.sent) ∧
    (∀ h : DWord, bits h.toNat 63 16 ≠ 0 ∨ 12 < bits h.toNat 15 8 → exec (.setHpol vf h) s = refused) ∧
    (∀ n, (vf < 32 → 0 < n → n ≤ 4096 → ({ s with vfs := KeyMap.put s.vfs vf { v with ctxmax := n } } : State).ctxTotal ≤ 4096 →
        sets (.setCtxmax vf n) { v with ctxmax := n }) ∧
      (n = 0 ∨ 4096 < n → exec (.setCtxmax vf n) s = refused)) ∧
    (∀ c n, vf < 32 → c < 32 → 0 < n → n < 65536 →
      let v' := { v with budgetNext := vecMod v.budgetNext c fun _ => n }
      (({ s with vfs := KeyMap.put s.vfs vf v' } : State).budgetsOk = true → sets (.setBudget vf c n) v') ∧
      (({ s with vfs := KeyMap.put s.vfs vf v' } : State).budgetsOk = false → exec (.setBudget vf c n) s = refused)) ∧
    (∀ c n, 32 ≤ vf ∨ 32 ≤ c ∨ n = 0 ∨ 65535 < n → exec (.setBudget vf c n) s = refused) ∧
    (∀ r pa, v.slices ≠ 0 → s.recordCause vf r = .ok pa →
      let rec_ := s.mem.bytes pa 256
      (∀ o, firstBad (contextChecks rec_) = some o → exec (.createContext vf r) s =
        .next ({ s with mem := s.mem.writeN (pa + 0xF8) 8 (0x80 + 256 * o) }.send (.answer false (.ofNat 64 (0x80 + 256 * o))))) ∧
      (∀ i, firstBad (contextChecks rec_) = none → s.ctxCount vf < v.ctxmax → s.contexts.length < 4096 →
        (∀ c ∈ s.contexts, c.1 / 4096 = vf → c.2.asid ≠ (contextOf rec_).asid) → i < 4096 →
        KeyMap.find s.contexts (vf * 4096 + i) = none →
        (∀ j, j < i → (KeyMap.find s.contexts (vf * 4096 + j)).isSome = true) →
        exec (.createContext vf r) s = .next ({ s with
          mem := s.mem.writeN (pa + 0xF8) 8 1
          contexts := KeyMap.put s.contexts (vf * 4096 + i) (contextOf rec_) }.send (.answer true (.ofNat 64 i))))) ∧
    (∀ nonce, nonce.length = 48 → v.slices ≠ 0 → let b := s.reportBody vf nonce
      exec (.attestationReport vf nonce) s = .next (s.send (.report (b ++ (Config.signRsa b).toList ++ (Config.signSlh b).toList)))) ∧
    (∀ region, regionExists region = true →
      (∀ x ∈ s.vfs, x.1 ≠ vf → mapsInto s.mem region [42, 29, 16] x.2.s2root.toNat = false) →
      (vf < 32 → s.ringIn region = false → (vecGet s.dies (regionDie region) {}).failed = false → ∃ u, exec (.assignRegion region (some vf) false) s = .next u ∧ region ∈ (u.vf vf).regions ∧
        region ∉ u.fwRegions ∧ ∀ x ∈ u.vfs, x.1 ≠ vf → region ∉ x.2.regions) ∧
      ((∀ x ∈ s.vfs, mapsInto s.mem region [42, 29, 16] x.2.s2root.toNat = false) → ∃ u, exec (.assignRegion region none false) s = .next u ∧ region ∈ u.fwRegions ∧ ∀ x ∈ u.vfs, region ∉ x.2.regions)) ∧
    (∀ root : DWord, vf < 32 → s.inFirmware root.toNat 65536 65536 = true → sets (.setS2root vf root) { v with s2root := root }) ∧
    (∀ (base : DWord) k, vf < 32 → 6 ≤ k → k ≤ 16 →
      (s.inFirmware base.toNat (32 * 2 ^ k) 4096 = true →
        sets (.setPageRequestRing vf base (2 ^ k)) { v with prq := { v.prq with base := base, len := 2 ^ k, pos := 0 } }) ∧
      (s.inFirmware base.toNat (16 * 2 ^ k) 4096 = true →
        sets (.setReplyRing vf base (2 ^ k)) { v with rpqbase := base, rpqlen := 2 ^ k, rpqpos := 0 })) ∧
    (∀ peers, vf < 32 → peers.length ≤ 64 → sets (.setPeers vf peers) { v with peers := peers }) ∧
    (∀ (base : DWord) k, 8 ≤ k → k ≤ 16 → s.inFirmware base.toNat (64 * 2 ^ k) 4096 = true → s.evq.held = [] →
      exec (.setEventQueue base (2 ^ k)) s =
        .next ({ s with evq := { s.evq with base := base, len := 2 ^ k, pos := 0 } }.send (.answer true 0))) ∧
    (∀ window (rbase limit : DWord) endpt rvf asid (flags : BitVec 8), vf < 32 → window < 256 →
      let w : Window := { rbase := rbase, limit := limit.toNat, endpt := endpt, rvf := rvf, asid := .ofNat 16 asid, flags := flags }
      windowOk w rvf asid limit.toNat = true → s.groups = [] → s.cores = [] →
      sets (.setWindow vf window rbase limit endpt rvf asid flags) { v with windows := KeyMap.put v.windows window w }) ∧
    (∀ kind (ga gb : DWord), kind ≤ 4 → gb.toNat < 2 ^ 21 →
      (∀ h ∈ s.groups, h.2.ctx / 4096 = gb.toNat / 65536 → ∀ o ∈ h.2.fifo, o.translated = false) →
      ∃ u, exec (.invalidate kind ga gb) s = .next u ∧ u.sent = .answer true 0 :: s.sent ∧
        ∀ x, x ∈ u.tlb ↔ x ∈ s.tlb ∧ tlbiDrops kind (gb.toNat / 65536) (gb.truncate 16) ga x = false)) ∧
  (∀ s vf ctx, ctx < 4096 → (KeyMap.find s.contexts (vf * 4096 + ctx)).isSome = true →
    (∀ launch k i, 4 ≤ k → k ≤ 16 → i < 4096 → (KeyMap.at s.queues i {}).live = false →
      (∀ j, j < i → (KeyMap.at s.queues j {}).live = true) →
      let q : Queue := { gen := (KeyMap.at s.queues i {}).gen, live := true, ctx := vf * 4096 + ctx, launch := launch, cap := 2 ^ k }
      exec (.qcreate vf ctx launch k) s =
        .next ({ s with queues := KeyMap.put s.queues i q }.send (.answer true (.ofNat 64 (q.gen * 2 ^ 48 + i))))) ∧
    (∀ h i q, s.queueOf (vf * 4096 + ctx) h = some (i, q) → q.waiters = [] →
      (∀ cls (x : DWord), cls < 8 → (q.launch = true → x.toNat % 256 = 0) → s.inbound = [] →
        (q.elems.length < q.cap → exec (.qsubmit vf ctx h cls x) s =
          .next ({ s with queues := KeyMap.put s.queues i { q with elems := q.elems ++ [(cls, x)] } }.send (.answer true 0))) ∧
        (q.cap ≤ q.elems.length → exec (.qsubmit vf ctx h cls x) s = .next (s.send (.answer false 3)))) ∧
      exec (.qdestroy vf ctx h) s = .next ({ s with queues := KeyMap.put s.queues i { q with
        live := false, elems := [], gen := if q.gen = 65535 then 1 else q.gen + 1 } }.send (.answer true 0))))

/-! ### Pre-emption and migration -/

/-- R376, R390 to R392, R400 to R402, R405 to R411: PREEMPT stops a running context, which is saved once it has come to rest; RESUME of
a saved one whose header passes its checks and whose parts can be read makes it run again, each group counting one pre-emption
and the cycles it stood beyond the counts its record holds (where a record holds them is the model's choice, log 35); SAVE_RETRY goes on from the fault; KILL ends a context; MIG_PREPARE accepts a partition of the same
shape, MIG_START stops every context of the source once a prepared target answers, and is refused where none does, BUNDLE_RESUME makes the bundle's contexts run on the target, a page is sent,
written and acknowledged with its OWN bits as R407 orders, and MIG_END leaves nothing of the source. -/
def Obligations.ContextsAreSavedAndMoved : Prop :=
  (∀ s vf ctx c, HostOpen s → ctx < 4096 → KeyMap.find s.contexts (vf * 4096 + ctx) = some c →
    let key := vf * 4096 + ctx
    let answered := s.send (.answer true 0)
    (∀ reason, reason ≤ 4 → c.state = .live →
      let begun := { answered with contexts := KeyMap.put s.contexts key { c with
        state := .saving, reason := reason, stopClock := .ofNat 64 (s.vf vf).clock, stopAt := s.cycle, frame := 0, wasSave := true } }
      exec (.preempt vf ctx reason) s = .next (if begun.saveReady key then begun.finishSave key else begun)) ∧
    (c.state ≠ .live → ∀ reason, exec (.preempt vf ctx reason) s = .next (s.send (.answer false 0))) ∧
    (c.state = .saved → c.frame = 0 →
      (s.headerOk key = some false → exec (.resume vf ctx) s = .next (s.send (.answer false 0))) ∧
      (s.headerOk key = some true →
        let s1 := ({ answered with contexts := KeyMap.put s.contexts key { c with state := .restoring } } : State).putHeader key 3
        (∀ p ∈ s1.savePieces key,
          (s1.saveRead vf (p.2.2.length / 65536 + 2) (c.save.toNat + p.2.1) p.2.2.length).isSome = true) →
        KeyMap.rising s.groups = true →
        ∃ u c', exec (.resume vf ctx) s = .next u ∧ KeyMap.find u.contexts key = some c' ∧ c'.state = .live ∧
          ∀ gid off b bs, (SavePart.group gid, off, b) ∈ s1.savePieces key →
            s1.saveRead vf (b.length / 65536 + 2) (c.save.toNat + off) b.length = some bs →
            ∃ g', KeyMap.find u.groups gid = some g' ∧ g'.preempts = .ofNat 32 (field bs 0x2C8 8) + 1 ∧
              g'.savedCycles = .ofNat 64 (field bs 0x2D0 8) + .ofNat 64 (s.cycle - c.stopAt))) ∧
    (∃ u, exec (.kill vf ctx) s = .next u ∧ KeyMap.find u.contexts key = none ∧ (∀ x ∈ u.groups, x.2.ctx ≠ key) ∧
      (∀ x ∈ u.crews, x.2.ctx ≠ key)) ∧
    (∀ a, (s.vf vf).saveFault = some (ctx, a) →
      let go := { answered with vfs := KeyMap.put s.vfs vf { s.vf vf with saveFault := none } }
      exec (.saveRetry vf) s = .next (if c.wasSave then go.writeSave key else go.readSave key))) ∧
  (∀ s vf, HostOpen s → (s.vf vf).slices ≠ 0 →
    let v := s.vf vf
    (∀ links, v.mig = none → sameLinks v.rankLinks links = true →
      exec (.migPrepare vf v.dieRanks links) s =
        .next ({ s with vfs := KeyMap.put s.vfs vf { v with mig := some { source := false } } }.send (.answer true 0))) ∧
    (∀ dies links, v.mig = none → dies ≠ v.dieRanks → exec (.migPrepare vf dies links) s = .next (s.send (.answer false 0))) ∧
    (∀ endpt target, exec (.migStart vf endpt target false) s = .next (s.send (.answer false 0))) ∧
    (∀ endpt target, v.mig = none → v.saveFault = none → ∃ u m, exec (.migStart vf endpt target true) s = .next u ∧
      (u.vf vf).mig = some m ∧ m.source = true ∧ m.endpt = endpt ∧ m.target = target ∧
      ∀ k c, KeyMap.find s.contexts k = some c → k / 4096 = vf → ∃ c', KeyMap.find u.contexts k = some c' ∧ c'.state ≠ .live) ∧
    (∀ m, v.mig = some m → m.source = true → m.quiesced = true → s.allMoved vf = true →
      ∃ u, exec (.migEnd vf) s = .next u ∧ (u.vf vf).slices = 0 ∧ (u.vf vf).mig = none ∧ (∀ c ∈ u.contexts, c.1 / 4096 ≠ vf) ∧
        ∀ x ∈ u.tlb, x.vf ≠ vf)) ∧
  (∀ s vf v m, KeyMap.find s.vfs vf = some v → v.mig = some m →
    (∀ b, KeyMap.find s.bundles vf = some b → m.source = false →
      ∃ u, exec (.bundleResume vf) s = .next u ∧ (u.vf vf).moves = v.moves + 1 ∧
        ∀ x ∈ b.contexts, ∃ c, KeyMap.find u.contexts x.1 = some c ∧ c.state = .live) ∧
    (∀ ipa at8 en, s.pageLeaf vf ipa = some (at8, en) →
      let page := ipa / 65536
      let frame := entOA en
      (m.source = true → m.quiesced = true → ownOf en = 0 → frame / 2 ^ 30 ∈ v.regions →
        ∃ u, exec (.pagePull vf ipa) s = .next u ∧ u.mem = s.mem.writeN at8 8 (en + 128) ∧
          u.sent = .page vf (page * 65536) (s.pageImage frame) :: s.sent ∧
          ((∀ i, i < 1024 → s.lineFault (frame + 64 * i) = none) → s.pageImage frame = s.mem.bytes frame 65536) ∧
          (u.vf vf).mig = some { m with transit := m.transit ++ [page], asked := m.asked.filter (· != page) } ∧
          ∀ x ∈ u.tlb, ¬ (x.vf = vf ∧ x.ipage = page)) ∧
      (m.source = true → page ∈ m.transit → s.inbound = [] →
        ∃ u, exec (.pageAck vf ipa) s = .next u ∧ u.mem = s.mem.writeN at8 8 (en - 64 * ownOf en + 64) ∧
          (u.vf vf).mig = some { m with transit := m.transit.filter (· != page) } ∧ ∀ x ∈ u.tlb, ¬ (x.vf = vf ∧ x.ipage = page)) ∧
      (∀ data : List Byte, m.source = false → ownOf en = 1 ∨ ownOf en = 2 → data.length = 65536 → frame / 2 ^ 30 ∈ v.regions →
        ∃ u, exec (.pageTransfer vf ipa data) s = .next u ∧ .pageAck vf (page * 65536) ∈ u.sent ∧
          (s.groups = [] → s.contexts = [] → s.cores = [] → s.shoreHeld = [] → s.pending = [] → s.inbound = [] →
            s.deadRings = [] → u.mem = (s.mem.writeBytes frame data).writeN at8 8 (en - 64 * ownOf en)))) ∧
    (∀ p, s.nextPush vf = some p → exec (.backgroundPush vf) s = exec (.pagePull vf (p * 65536)) s) ∧
    (s.nextPush vf = none → exec (.backgroundPush vf) s = .next s))

/-! ### Power, budgets, SRAM, links, boot -/

/-- R10, R19, R312, R341 to R344, R358, R377, R386, R403, R404, R423 to R428, R430 to R432: what the device's edges do: a power
cap, a thermal freeze and its end, a budget window, a row that crosses its threshold, routers, a ring that is tried again,
scrubbing and the rebuild of an SRAM bank, replays, lane repairs and retraining of links, management events, boot, recovery and
retirement. -/
def Obligations.EdgesOfTheDevice : Prop :=
  (∀ s watts, HostOpen s →
    (1200 ≤ watts → watts ≤ 2800 → ∃ u, exec (.powercap watts) s = .next u ∧ u.watts = watts ∧ u.sent = .answer true 0 :: s.sent ∧
      u.mem = s.mem ∧ u.groups = s.groups ∧ ∀ c, c < 32 → 1 ≤ (u.cluster c).budget ∧ (u.cluster c).budget ≤ 65535) ∧
    (watts < 1200 ∨ 2800 < watts → exec (.powercap watts) s = .next (s.send (.answer false 0)))) ∧
  (∀ s stack, s.frozen = false →
    exec (.thermalFreeze stack) s = .next ({ s with frozen := true, frozenAt := s.refTime }.postErr { kind := 0x0E, unit := stack })) ∧
  (∀ s cycles vf v, s.frozen = true → KeyMap.find s.vfs vf = some v →
    let lasted := ((s.refTime + cycles) % 2 ^ 64 + 2 ^ 64 - s.frozenAt % 2 ^ 64) % 2 ^ 64
    ∃ u v', exec (.thermalResume cycles) s = .next u ∧ u.frozen = false ∧ u.groups = s.groups ∧ KeyMap.find u.vfs vf = some v' ∧
      v'.clock = v.clock + lasted ∧ v'.frozen = v.frozen + .ofNat 64 lasted) ∧
  (∀ s, s.sliceWait = [] → ∃ u, exec .budgetWindow s = .next u ∧ u.mem = s.mem ∧ u.groups = s.groups ∧
    (∀ k, KeyMap.at u.spent k 0 = KeyMap.at s.spent k 0 - s.sliceBudget k) ∧
    ∀ n v, KeyMap.find s.vfs n = some v → KeyMap.find u.vfs n = some { v with budget := v.budgetNext }) ∧
  (∀ s slice vf row, ∃ u, exec (.rowThresholdCrossing slice vf row) s = .next u ∧
    KeyMap.at u.spent slice 0 = KeyMap.at s.spent slice 0 + s.rowDelay ∧ s.rowThresh ≤ u.rowCount (slice, row, vf) ∧
    (s.rowThresh ≤ s.rowCount (slice, row, vf) → u.evq = s.evq)) ∧
  (∀ s slice row, ∃ u, exec (.activationCountRestart slice row) s = .next u ∧ ∀ vf, u.rowCount (slice, row, vf) = 0) ∧
  (∀ s router, (KeyMap.find s.routersWoke router = some s.cycle → exec (.routerPowerDown router) s = .next s) ∧
    (KeyMap.find s.routersWoke router ≠ some s.cycle → ∃ u, exec (.routerPowerDown router) s = .next u ∧ router ∈ u.routersOff ∧ u.mem = s.mem) ∧
    ∃ u, exec (.routerWake router) s = .next u ∧ router ∉ u.routersOff ∧ u.mem = s.mem) ∧
  (∀ s owner, exec (.ringRetry 0 owner) s = exec (.pageRequest owner) s ∧
    exec (.ringRetry 1 owner) s = .next ((State.flushEvents 65 owner s).flushDead fun k => k == owner) ∧ exec (.ringRetry 2 owner) s = .next (State.flushErr 1025 s)) ∧
  (∀ s array row, (s.sram array).failed = none →
    ∃ u, exec (.scrub array row) s = .next u ∧ (s.wrongSymbols array row = [] → u = s) ∧
    (∀ k, s.wrongSymbols array row = [k] → (u.sram array).corrected = (s.sram array).corrected + 1 ∧
      KeyMap.find (u.sram array).wrong row = none ∧ u.groups = s.groups)) ∧
  (∀ s array bank, (s.sram array).failed = none → (s.sram array).spareUsed = false →
    ∃ u, exec (.bankFailed array bank) s = .next u ∧ (u.sram array).failed = some bank ∧ (u.sram array).corrected = 0 ∧
      u.groups = s.groups) ∧
  (∀ s array bank, (s.sram array).failed = some bank → (s.sram array).spareUsed = false → (s.sram array).erasure = false →
    ∃ u, exec (.rebuildDone array) s = .next u ∧ (u.sram array).failed = none ∧ (u.sram array).spareUsed = true) ∧
  (∀ s link, let l := s.link link
    (∀ ok, let f := if ok then 0 else l.failed + 1
      (f < 3 → ∃ u, exec (.linkReplay link ok) s = .next u ∧
        u.link link = { l with errors := l.errors + 1, replay := true, failed := f }) ∧
      (3 ≤ f → ∃ u, exec (.linkReplay link ok) s = .next u ∧ (u.link link).retraining = true ∧ (u.link link).replay = false)) ∧
    (∀ lane, (l.replay = true → ∃ u, exec (.laneRepair link lane) s = .next u ∧ u.link link = { l with repair := some lane }) ∧
      (l.replay = false → 0 < l.spares → ∃ u, exec (.laneRepair link lane) s = .next u ∧
        u.link link = { l with spares := l.spares - 1, moved := l.moved ++ [lane], repair := none }) ∧
      (l.replay = false → l.spares = 0 → ∃ u, exec (.laneRepair link lane) s = .next u ∧ (u.link link).retraining = true)) ∧
    (∃ u, exec (.linkRetrain link) s = .next u ∧
      u.link link = { l with retraining := true, replay := false, failed := 0, repair := none }) ∧
    (l.retraining = true → ∀ ok, ∃ u, exec (.retrainComplete link ok) s = .next u ∧ (u.link link).retraining = false ∧
      (u.link link).errors = 0 ∧ (u.link link).disabled = !ok ∧ (ok = false → link ∈ u.absent ∧ ∀ t ∈ u.txs, t.port ≠ 64 + link)) ∧
    (∃ u, exec (.linkReplayComplete link) s = .next u ∧ ((l.replay = false ∨ l.repair = none) →
      u.link link = { l with replay := false, failed := 0 }) ∧
      (∀ lane, l.replay = true → l.repair = some lane → 0 < l.spares → (u.link link).moved = l.moved ++ [lane]))) ∧
  (∀ s die b gid g, die < 4 → b < 5 → KeyMap.find s.groups gid = some g →
    ∃ u g', exec (.managementEvent die b) s = .next u ∧ KeyMap.find u.groups gid = some g' ∧
      (vecGet u.dies die {}).mevent = ((vecGet s.dies die {}).mevent ||| .ofNat 32 (2 ^ b)) ∧
      g'.halted = (g.halted && !(g.priv == .h && mgmtDie g.core == die)) ∧ { g' with halted := g.halted } = g) ∧
  (∀ s, (vecGet s.dies 0 {}).mboot = 0 → (vecGet s.dies 0 {}).failed = false →
    (s.image.passes s.minVersion = true → ∃ u, exec .powerOnBoot s = .next u ∧ (vecGet u.dies 0 {}).mboot = 7 ∧ u.mem = s.mem) ∧
    (s.image.passes s.minVersion = false → ∃ u, exec .powerOnBoot s = .next u ∧ (vecGet u.dies 0 {}).mboot = 0x80)) ∧
  (∀ s version, (vecGet s.dies 0 {}).mboot = 0x80 → (vecGet s.dies 0 {}).failed = false →
    (s.minVersion ≤ version → ∃ u, exec (.recoveryImage 0x43524E31 version true true) s = .next u ∧ (vecGet u.dies 0 {}).mboot = 7 ∧
      u.image.version = version) ∧
    (∀ magic r1 r2, magic ≠ 0x43524E31 ∨ version < s.minVersion ∨ r1 = false ∨ r2 = false →
      exec (.recoveryImage magic version r1 r2) s = .next s)) ∧
  (∀ s cluster, cluster < 32 → s.clusterIdle cluster = true → cluster / 8 ∉ s.spareUsed →
    ∃ u, exec (.clusterRetiredInService cluster) s = .next u ∧ vecGet u.remap cluster 0 = 8 ∧ cluster / 8 ∈ u.spareUsed) ∧
  (∀ s die, die < 4 → ∃ u, exec (.managementCoreFailure die) s = .next u ∧ (vecGet u.dies die {}).failed = true ∧
    (∀ k, k < 8 → 8 * die + k ∈ u.hidden) ∧
    ∀ p, p ∈ diePorts die → KeyMap.find u.ports p = some { up := false, lost := true })

/-! ### The step, the words, reset -/

/-- R50 to R53, R57, R281: when the step falls to an entry with no latched prefix, its word is fetched at its PC through the
translation, and if the word decodes to an instruction the step is that instruction's own effect with the entry acting, after the
entry's turn is accounted for, and then time passes. A word under a LIT or a REP runs the same way when it is a legal target, with
its register fields stepped under a REP. A word that decodes to nothing, or that is no legal target, traps ILLEGAL_OPCODE at the
word. An instruction that waits runs again; a run of a Shore unit runs its method word; what the environment does comes first. While the
device is frozen only the thermal signals, management events and peers' requests go on (R403, R404). -/
def Obligations.StepRunsTheDecodedInstruction : Prop :=
  (∀ (s : State) (g : Group) (va : Nat) (e : TlbEntry), va % 4 = 0 → va < 0x7FE00000000000 → s.translate g.ctx va .fetch g.priv = .ok e → s.lineFault (e.pa va) = none →
    s.farPort (e.pa va) = none →
    s.fetch g va = .word (.ofNat 32 (s.mem.readN (e.pa va) 4)) e) ∧
  (∀ (s : State) gid ei g e w t, KeyMap.find s.groups gid = some g → g.entries[ei]? = some e →
    s.turn = some (.entry gid ei (s.plan g e)) → e.held = none → e.fail = none → s.fetch g e.wordPc.toNat = .word w t →
    let runs := fun i => step s = endStep (exec i { s.fetched gid ei i (some t) with cur := .group gid ei })
    let illegal := step s = endStep (.next (s.trapWord gid ei
      { cause := .illegalOpcode, addr := 0, lane := lowestLane e.mask, pc := some e.wordPc } none))
    (∀ i, decode w = .ok i → e.pre.rep = none → (e.pre.lit = none ∨ litTarget i = true) → runs i) ∧
    (∀ i, decode w = .ok i → e.pre.rep = none → e.pre.lit.isSome = true → litTarget i = false → illegal) ∧
    (∀ i f cnt ds as bs j, decode w = .ok i → e.pre.rep = some (cnt, ds, as, bs) → repTarget i = some f →
      (e.pre.lit = none ∨ litTarget i = true) → strideBad f ds as bs = false → e.pre.idx ≤ cnt →
      (steppedWord w.toNat e.pre.idx ds as bs).2 = false →
      decode (.ofNat 32 (steppedWord w.toNat e.pre.idx ds as bs).1) = .ok j → runs j) ∧
    (∀ x, decode w = .error x → illegal)) ∧
  (∀ (s : State) gid ei i, s.turn = some (.again gid ei i) → step s = endStep (exec i { s with cur := .group gid ei })) ∧
  (∀ (s : State) (r : Run) w i, s.turn = some (.shore r (s.runInstr r)) → r.isClose = false →
    (KeyMap.at s.streams r.stream {}).method[r.pc]? = some w → decode w = .ok i →
    step s = endStep (exec i { s with cur := .shore, shoreQ := r :: s.shoreQ.erase r })) ∧
  (∀ (s : State) i rest, s.frozen = false → s.agenda = i :: rest →
    step s = endStep (exec i { s with cur := .none, agenda := rest })) ∧
  (∀ (s : State), s.frozen = true → (∀ i, s.agenda.find? goesOn = some i →
      step s = endStep (exec i { s with cur := .none, agenda := s.agenda.eraseP goesOn })) ∧
    ((∀ i ∈ s.agenda, goesOn i = false) → step s = .next s.pass)) ∧
  ∀ s t, endStep (.next s) = .next t → t = s.pass ∧ t.mem = s.mem ∧ t.tick = s.tick + 1 ∧
    ∀ gid g, KeyMap.find s.groups gid = some g → ∃ g', KeyMap.find t.groups gid = some g' ∧ { g' with engq := g.engq } = g

/-- R32 to R49: words whose bits the spec writes out decode to the instructions it says they stand for. -/
def Obligations.DecodeExamples : Prop :=
  decode 0x02102860#32 = .ok (.iadd 4 5 6 false) ∧ decode 0x22102860#32 = .ok (.fmac 4 5 6 0 false false) ∧
  decode 0x3E203910#32 = .ok (.ld 8 7 4 2 0 false) ∧ decode 0x84104020#32 = .ok (.gaddi 2 2 16 false) ∧
  decode 0x14080208#32 = .ok (.srd 2 0x020 false) ∧ decode 0xA4404032#32 = .ok (.mma 8 2 3 1 false) ∧
  decode 0x4C4020CA#32 = .ok (.tex 16 4 6 5 false) ∧ decode 0x98A2A184#32 = .ok (.bara 20 21 3 2 false) ∧
  decode 0x700C0200#32 = .ok (.mfrg 3 4) ∧ decode 0xAE1A8A84#32 = .ok (.qpush 3 20 21 2 false) ∧
  decode 0xB8214580#32 = .ok (.bowchk 4 10 11 false) ∧ decode 0xC0F3E282#32 = .ok (.rtopen 30 31 5 true false)

/-- R10, R59, R61, R335, R348, R432: at power on no virtual function exists, every block of one holds the values R335 gives, no
group, crew, context or stream exists, no die has booted, every logical cluster stands at its own place and no spare is in use, and
memory is in its canonical form. A group that starts has every register at the value R61 gives and full. -/
def Obligations.ResetState : Prop :=
  let s := State.reset
  s.mem.wf = true ∧ s.groups = [] ∧ s.crews = [] ∧ s.contexts = [] ∧ s.streams = [] ∧ s.queues = [] ∧ s.sets = [] ∧ s.frozen = false ∧
  s.spareUsed = [] ∧ s.hidden = [] ∧ s.absent = [] ∧
  (∀ n, (s.vf n).slices = 0 ∧ (s.vf n).hpol = 0 ∧ (s.vf n).ctxmax = 1 ∧ ∀ c, c < 32 → vecGet (s.vf n).budget c 0 = 28800) ∧
  (∀ d, d < 4 → (vecGet s.dies d {}).mboot = 0) ∧ (∀ c, c < 32 → vecGet s.remap c 0 = c % 8) ∧
  (let g : Group := {}
   (∀ r l, g.vAt r l = 0) ∧ (∀ r, g.gAt r = 0) ∧ (∀ r, 1 ≤ r → g.pAt r = 0 ∧ g.qAt r = false) ∧ g.arith = 0 ∧
   (∀ r m, g.vEmpty r m = false ∧ g.pEmpty r m = false) ∧ ∀ r, g.gEmpty r = false ∧ g.qEmpty r = false)

/-- R32 to R56: decoding the word of a well-formed coded instruction gives that instruction, for every constructor and every
value of its fields that the encoding allows. -/
def Obligations.DecodeOfEncode : Prop :=
  ∀ i : Instr, i.wf = true → i.coded = true → decode (encode i) = .ok i

/-- R32 to R56: a word that decodes is the one word of its instruction, which is coded and well formed: every bit of the word is
in the instruction, and every reserved bit is zero. -/
def Obligations.EncodeOfDecode : Prop :=
  ∀ (w : Word) (i : Instr), decode w = .ok i → i.wf = true ∧ i.coded = true ∧ encode i = w

/-- R5, R348 (the canonical form is the model's, log 1): every step of the machine keeps memory in its one canonical form, in
which equal memories are equal data. -/
def Obligations.StepKeepsMemory : Prop :=
  ∀ s t : State, s.mem.wf = true → step s = .next t → t.mem.wf = true
end

