-- ==== Sys2Proof/Laws/Maps.lean ====
section
/-! SUPPORT. Sys2Proof/Laws/Maps.lean: the laws of keyed state and of memory: a read after a write, what a write leaves alone,
and that every write keeps the canonical form (log 1). -/
namespace Sys2Proof

/-! ### Keyed state -/

@[simp] theorem keyMap_find_nil {α : Type} (k : Nat) : KeyMap.find ([] : KeyMap α) k = none := rfl

theorem keyMap_find_put_same {α : Type} (m : KeyMap α) (k : Nat) (x : α) : KeyMap.find (KeyMap.put m k x) k = some x := by
  induction m with
  | nil => simp [KeyMap.put, KeyMap.find]
  | cons c r ih =>
    obtain ⟨j, y⟩ := c
    unfold KeyMap.put
    split
    · simp [KeyMap.find]
    · split
      · simp [KeyMap.find]
      · rename_i h
        simp [KeyMap.find, Ne.symm h, ih]

theorem keyMap_find_put_other {α : Type} (m : KeyMap α) (k j : Nat) (x : α) (h : j ≠ k) :
    KeyMap.find (KeyMap.put m k x) j = KeyMap.find m j := by
  induction m with
  | nil => simp [KeyMap.put, KeyMap.find, Ne.symm h]
  | cons c r ih =>
    obtain ⟨i, y⟩ := c
    unfold KeyMap.put
    split
    · simp [KeyMap.find, Ne.symm h]
    · split
      · rename_i h2
        subst h2
        simp [KeyMap.find, Ne.symm h]
      · simp [KeyMap.find, ih]

theorem keyMap_find_put {α : Type} (m : KeyMap α) (k j : Nat) (x : α) :
    KeyMap.find (KeyMap.put m k x) j = if j = k then some x else KeyMap.find m j := by
  split
  · rename_i h; subst h; exact keyMap_find_put_same m _ x
  · rename_i h; exact keyMap_find_put_other m k j x h

theorem keyMap_find_filter {α : Type} (m : KeyMap α) (f : Nat → Bool) (k : Nat) :
    KeyMap.find (List.filter (fun (c : Nat × α) => f c.1) m) k = if f k then KeyMap.find m k else none := by
  induction m with
  | nil => simp [KeyMap.find]
  | cons c r ih =>
    obtain ⟨j, y⟩ := c
    by_cases hj : f j
    · by_cases hk : j = k
      · subst hk; simp [hj, KeyMap.find]
      · simp [hj, KeyMap.find, hk, ih]
    · by_cases hk : j = k
      · subst hk; simp [hj, ih]
      · simp [hj, KeyMap.find, hk, ih]

theorem keyMap_find_del {α : Type} (m : KeyMap α) (k j : Nat) :
    KeyMap.find (KeyMap.del m k) j = if j = k then none else KeyMap.find m j := by
  unfold KeyMap.del
  rw [keyMap_find_filter m (fun i => i != k) j]
  by_cases h : j = k <;> simp [h]

theorem keyMap_find_upd {α : Type} (m : KeyMap α) (k j : Nat) (f : α → α) :
    KeyMap.find (KeyMap.upd m k f) j = if j = k then (KeyMap.find m k).map f else KeyMap.find m j := by
  unfold KeyMap.upd
  split
  · rename_i x h
    rw [keyMap_find_put, h]; rfl
  · rename_i h
    by_cases hj : j = k
    · subst hj; simp [h]
    · simp [hj]

theorem keyMap_find_mapAll {α : Type} (m : KeyMap α) (k : Nat) (f : Nat → α → α) :
    KeyMap.find (KeyMap.mapAll m f) k = (KeyMap.find m k).map (f k) := by
  induction m with
  | nil => rfl
  | cons c r ih =>
    obtain ⟨j, y⟩ := c
    have hm : KeyMap.mapAll ((j, y) :: r) f = (j, f j y) :: KeyMap.mapAll r f := rfl
    rw [hm]
    by_cases h : j = k
    · subst h; simp [KeyMap.find]
    · simp [KeyMap.find, h, ih]

theorem keyMap_at_put {α : Type} (m : KeyMap α) (k j : Nat) (x d : α) :
    KeyMap.at (KeyMap.put m k x) j d = if j = k then x else KeyMap.at m j d := by
  unfold KeyMap.at
  rw [keyMap_find_put]
  by_cases h : j = k <;> simp [h]

/-! ### Rising keys -/

/-- Keys rising from the second entry on, and above the first: the shape every proof about `rising` uses. -/
theorem keyMap_rising_cons {α : Type} (c : Nat × α) (r : KeyMap α) :
    KeyMap.rising (c :: r) = true ↔ (∀ d, r.head? = some d → c.1 < d.1) ∧ KeyMap.rising r = true := by
  obtain ⟨j, x⟩ := c
  cases r with
  | nil => simp [KeyMap.rising]
  | cons d r =>
    obtain ⟨k, y⟩ := d
    simp [KeyMap.rising]

/-- In a rising map every later key is above the first. -/
theorem keyMap_rising_lt {α : Type} (c : Nat × α) (r : KeyMap α) (h : KeyMap.rising (c :: r) = true) :
    ∀ d ∈ r, c.1 < d.1 := by
  induction r generalizing c with
  | nil => simp
  | cons d r ih =>
    rw [keyMap_rising_cons] at h
    intro e he
    have h1 : c.1 < d.1 := h.1 d rfl
    rcases List.mem_cons.mp he with rfl | he
    · exact h1
    · exact Nat.lt_trans h1 (ih d h.2 e he)

theorem keyMap_rising_of_lt {α : Type} (c : Nat × α) (r : KeyMap α) (h : KeyMap.rising r = true)
    (hl : ∀ d ∈ r, c.1 < d.1) : KeyMap.rising (c :: r) = true := by
  rw [keyMap_rising_cons]
  refine ⟨?_, h⟩
  intro d hd
  cases r with
  | nil => simp at hd
  | cons e r => simp at hd; subst hd; exact hl _ (by simp)

theorem keyMap_mem_put {α : Type} (m : KeyMap α) (k : Nat) (x : α) (c : Nat × α) (h : c ∈ KeyMap.put m k x) :
    c = (k, x) ∨ c ∈ m := by
  induction m with
  | nil => simp [KeyMap.put] at h; exact .inl h
  | cons d r ih =>
    obtain ⟨j, y⟩ := d
    unfold KeyMap.put at h
    split at h
    · simpa using h
    · split at h
      · rcases List.mem_cons.mp h with h | h
        · exact .inl h
        · exact .inr (by simp [h])
      · rcases List.mem_cons.mp h with h | h
        · exact .inr (by simp [h])
        · rcases ih h with h | h
          · exact .inl h
          · exact .inr (by simp [h])

theorem keyMap_rising_put {α : Type} (m : KeyMap α) (k : Nat) (x : α) (h : KeyMap.rising m = true) :
    KeyMap.rising (KeyMap.put m k x) = true := by
  induction m with
  | nil => rfl
  | cons c r ih =>
    obtain ⟨j, y⟩ := c
    have hr := (keyMap_rising_cons _ _).mp h
    have hl := keyMap_rising_lt _ _ h
    unfold KeyMap.put
    split
    · rename_i hk
      refine keyMap_rising_of_lt _ _ h ?_
      intro d hd
      rcases List.mem_cons.mp hd with rfl | hd
      · exact hk
      · exact Nat.lt_trans hk (hl d hd)
    · split
      · rename_i hk
        subst hk
        exact keyMap_rising_of_lt _ _ hr.2 hl
      · rename_i h1 h2
        refine keyMap_rising_of_lt _ _ (ih hr.2) ?_
        intro d hd
        rcases keyMap_mem_put _ _ _ _ hd with rfl | hd
        · change j < k; omega
        · exact hl d hd

theorem keyMap_rising_filter {α : Type} (m : KeyMap α) (f : Nat × α → Bool) (h : KeyMap.rising m = true) :
    KeyMap.rising (List.filter f m) = true := by
  induction m with
  | nil => rfl
  | cons c r ih =>
    have hr := (keyMap_rising_cons _ _).mp h
    have hl := keyMap_rising_lt _ _ h
    by_cases hc : f c
    · rw [List.filter_cons_of_pos hc]
      exact keyMap_rising_of_lt _ _ (ih hr.2) fun d hd => hl d (List.mem_of_mem_filter hd)
    · rw [List.filter_cons_of_neg hc]
      exact ih hr.2

namespace Machine

/-! ### Memory -/

/-- A read after a write to the same address gives the byte written; a write leaves every other address alone. -/
theorem memory_read_write (m : Memory) (a c : Nat) (b : Byte) :
    (m.write a b).read c = if c = a then b else m.read c := by
  unfold Memory.write Memory.read
  split
  · rename_i hb
    rw [keyMap_find_del]
    by_cases h : c = a <;> simp [h, hb]
  · rw [keyMap_find_put]
    by_cases h : c = a <;> simp [h]

@[simp] theorem memory_read_write_same (m : Memory) (a : Nat) (b : Byte) : (m.write a b).read a = b := by
  simp [memory_read_write]

theorem memory_read_write_other (m : Memory) (a c : Nat) (b : Byte) (h : c ≠ a) : (m.write a b).read c = m.read c := by
  simp [memory_read_write, h]

/-- Every write keeps the canonical form. -/
theorem memory_wf_write (m : Memory) (a : Nat) (b : Byte) (h : m.wf = true) : (m.write a b).wf = true := by
  unfold Memory.wf at *
  simp only [Bool.and_eq_true] at *
  unfold Memory.write
  split
  · refine ⟨keyMap_rising_filter _ _ h.1, ?_⟩
    rw [List.all_eq_true] at *
    exact fun c hc => h.2 c (List.mem_of_mem_filter hc)
  · rename_i hb
    refine ⟨keyMap_rising_put _ _ _ h.1, ?_⟩
    rw [List.all_eq_true] at *
    intro c hc
    rcases keyMap_mem_put _ _ _ _ hc with rfl | hc
    · simpa using hb
    · exact h.2 c hc

theorem memory_wf_writeN (m : Memory) (a n x : Nat) (h : m.wf = true) : (m.writeN a n x).wf = true := by
  induction n generalizing m a x with
  | zero => exact h
  | succ n ih => exact ih _ _ _ (memory_wf_write _ _ _ h)

theorem memory_wf_writeBytes (m : Memory) (a : Nat) (bs : List Byte) (h : m.wf = true) : (m.writeBytes a bs).wf = true := by
  induction bs generalizing m a with
  | nil => exact h
  | cons b r ih => exact ih _ _ (memory_wf_write _ _ _ h)

theorem memory_wf_filter (m : Memory) (f : Host.Cell → Bool) (h : m.wf = true) :
    Memory.wf (List.filter f m) = true := by
  unfold Memory.wf at *
  simp only [Bool.and_eq_true] at *
  refine ⟨keyMap_rising_filter _ _ h.1, ?_⟩
  rw [List.all_eq_true] at *
  exact fun c hc => h.2 c (List.mem_of_mem_filter hc)

/-- A write of n bytes leaves every address outside them alone. -/
theorem memory_read_writeN_other (m : Memory) (a n x c : Nat) (h : c < a ∨ a + n ≤ c) :
    (m.writeN a n x).read c = m.read c := by
  induction n generalizing m a x with
  | zero => rfl
  | succ n ih =>
    show ((m.write a (.ofNat 8 x)).writeN (a + 1) n (x / 256)).read c = m.read c
    rw [ih _ _ _ (by omega), memory_read_write_other _ _ _ _ (by omega)]

theorem memory_read_writeBytes_other (m : Memory) (a c : Nat) (bs : List Byte) (h : c < a ∨ a + bs.length ≤ c) :
    (m.writeBytes a bs).read c = m.read c := by
  induction bs generalizing m a with
  | nil => rfl
  | cons b r ih =>
    show ((m.write a b).writeBytes (a + 1) r).read c = m.read c
    rw [List.length_cons] at h
    rw [ih _ _ (by omega), memory_read_write_other _ _ _ _ (by omega)]

/-- Reading n bytes depends on those bytes alone. -/
theorem memory_readN_congr (m m' : Memory) (a n : Nat) (h : ∀ c, a ≤ c → c < a + n → m.read c = m'.read c) :
    m.readN a n = m'.readN a n := by
  induction n generalizing a with
  | zero => rfl
  | succ n ih =>
    show (m.read a).toNat + 256 * m.readN (a + 1) n = (m'.read a).toNat + 256 * m'.readN (a + 1) n
    rw [h a (by omega) (by omega), ih _ fun c h1 h2 => h c (by omega) (by omega)]

/-- The number written reads back, cut to its bytes. -/
theorem memory_readN_writeN (m : Memory) (a n x : Nat) : (m.writeN a n x).readN a n = x % 256 ^ n := by
  induction n generalizing m a x with
  | zero => simp [Memory.readN, Nat.mod_one]
  | succ n ih =>
    show (((m.write a (.ofNat 8 x)).writeN (a + 1) n (x / 256)).read a).toNat +
      256 * ((m.write a (.ofNat 8 x)).writeN (a + 1) n (x / 256)).readN (a + 1) n = _
    rw [memory_read_writeN_other _ _ _ _ _ (by omega), memory_read_write_same, ih, BitVec.toNat_ofNat, Nat.pow_succ 256,
      Nat.mul_comm (256 ^ n) 256, Nat.mod_mul]

/-! ### Lanes, and elements of vectors -/

theorem testBit_foldr_bits (f : Nat → Bool) (xs : List Nat) (i : Nat) :
    (xs.foldr (fun j acc => 2 * acc + (if f j then 1 else 0)) 0).testBit i = (xs[i]?).any f := by
  induction xs generalizing i with
  | nil => simp
  | cons x r ih =>
    cases i with
    | zero =>
      simp only [List.foldr_cons, List.getElem?_cons_zero, Option.any_some]
      by_cases h : f x <;> simp [h, Nat.testBit, Nat.add_mod]
    | succ i =>
      simp only [List.foldr_cons, List.getElem?_cons_succ, Nat.testBit_succ]
      rw [← ih i]
      congr 1
      by_cases h : f x
      · simp [h]; omega
      · simp [h]

/-- A mask holds the lanes its test accepts. -/
@[simp] theorem maskOf_getLsbD (f : Nat → Bool) (i : Nat) : (maskOf f).getLsbD i = (decide (i < 128) && f i) := by
  unfold maskOf
  rw [BitVec.getLsbD_ofNat, testBit_foldr_bits]
  by_cases h : i < 128 <;> simp [h]

@[simp] theorem setLanes_get {α : Type} (old : Lanes α) (m : Mask) (f : Fin 128 → α) (l : Fin 128) :
    (setLanes old m f)[l] = if m.getLsbD l.val then f l else old[l] := by
  simp [setLanes, lanesOf]

theorem vecGet_vecMod_same {α : Type} {n : Nat} (v : Vector α n) (i : Nat) (f : α → α) (d : α) (h : i < n) :
    vecGet (vecMod v i f) i d = f (vecGet v i d) := by
  simp [vecGet, vecMod, h]

theorem vecGet_vecMod_other {α : Type} {n : Nat} (v : Vector α n) (i j : Nat) (f : α → α) (d : α) (h : j ≠ i) :
    vecGet (vecMod v i f) j d = vecGet v j d := by
  unfold vecGet vecMod
  split
  · split
    · rename_i h1 h2
      simp [Ne.symm h]
    · rfl
  · rfl

end Machine
end Sys2Proof
end

