-- ==== Sys2Proof/Laws/State.lean ====
section
/-! SUPPORT. Sys2Proof/Laws/State.lean: one lemma per field of State for each of the updates the meanings are made of, so that
no proof unfolds a record update. -/
namespace Sys2Proof.Machine

/-! ### updGroup changes `groups` alone -/

@[simp] theorem State.updGroup_mem (s : State) (k : Nat) (f : Group → Group) : (s.updGroup k f).mem = s.mem := rfl
@[simp] theorem State.updGroup_badLines (s : State) (k : Nat) (f : Group → Group) : (s.updGroup k f).badLines = s.badLines := rfl
@[simp] theorem State.updGroup_deadLines (s : State) (k : Nat) (f : Group → Group) : (s.updGroup k f).deadLines = s.deadLines := rfl
@[simp] theorem State.updGroup_tick (s : State) (k : Nat) (f : Group → Group) : (s.updGroup k f).tick = s.tick := rfl
@[simp] theorem State.updGroup_cycle (s : State) (k : Nat) (f : Group → Group) : (s.updGroup k f).cycle = s.cycle := rfl
@[simp] theorem State.updGroup_agenda (s : State) (k : Nat) (f : Group → Group) : (s.updGroup k f).agenda = s.agenda := rfl
@[simp] theorem State.updGroup_cur (s : State) (k : Nat) (f : Group → Group) : (s.updGroup k f).cur = s.cur := rfl
@[simp] theorem State.updGroup_dies (s : State) (k : Nat) (f : Group → Group) : (s.updGroup k f).dies = s.dies := rfl
@[simp] theorem State.updGroup_image (s : State) (k : Nat) (f : Group → Group) : (s.updGroup k f).image = s.image := rfl
@[simp] theorem State.updGroup_minVersion (s : State) (k : Nat) (f : Group → Group) : (s.updGroup k f).minVersion = s.minVersion := rfl
@[simp] theorem State.updGroup_refTime (s : State) (k : Nat) (f : Group → Group) : (s.updGroup k f).refTime = s.refTime := rfl
@[simp] theorem State.updGroup_clkStep (s : State) (k : Nat) (f : Group → Group) : (s.updGroup k f).clkStep = s.clkStep := rfl
@[simp] theorem State.updGroup_frozen (s : State) (k : Nat) (f : Group → Group) : (s.updGroup k f).frozen = s.frozen := rfl
@[simp] theorem State.updGroup_frozenAt (s : State) (k : Nat) (f : Group → Group) : (s.updGroup k f).frozenAt = s.frozenAt := rfl
@[simp] theorem State.updGroup_watts (s : State) (k : Nat) (f : Group → Group) : (s.updGroup k f).watts = s.watts := rfl
@[simp] theorem State.updGroup_remap (s : State) (k : Nat) (f : Group → Group) : (s.updGroup k f).remap = s.remap := rfl
@[simp] theorem State.updGroup_remapCores (s : State) (k : Nat) (f : Group → Group) : (s.updGroup k f).remapCores = s.remapCores := rfl
@[simp] theorem State.updGroup_remapSlices (s : State) (k : Nat) (f : Group → Group) : (s.updGroup k f).remapSlices = s.remapSlices := rfl
@[simp] theorem State.updGroup_hidden (s : State) (k : Nat) (f : Group → Group) : (s.updGroup k f).hidden = s.hidden := rfl
@[simp] theorem State.updGroup_spareUsed (s : State) (k : Nat) (f : Group → Group) : (s.updGroup k f).spareUsed = s.spareUsed := rfl
@[simp] theorem State.updGroup_absent (s : State) (k : Nat) (f : Group → Group) : (s.updGroup k f).absent = s.absent := rfl
@[simp] theorem State.updGroup_evq (s : State) (k : Nat) (f : Group → Group) : (s.updGroup k f).evq = s.evq := rfl
@[simp] theorem State.updGroup_links (s : State) (k : Nat) (f : Group → Group) : (s.updGroup k f).links = s.links := rfl
@[simp] theorem State.updGroup_ports (s : State) (k : Nat) (f : Group → Group) : (s.updGroup k f).ports = s.ports := rfl
@[simp] theorem State.updGroup_srams (s : State) (k : Nat) (f : Group → Group) : (s.updGroup k f).srams = s.srams := rfl
@[simp] theorem State.updGroup_routersOff (s : State) (k : Nat) (f : Group → Group) : (s.updGroup k f).routersOff = s.routersOff := rfl
@[simp] theorem State.updGroup_routersWoke (s : State) (k : Nat) (f : Group → Group) : (s.updGroup k f).routersWoke = s.routersWoke := rfl
@[simp] theorem State.updGroup_rowThresh (s : State) (k : Nat) (f : Group → Group) : (s.updGroup k f).rowThresh = s.rowThresh := rfl
@[simp] theorem State.updGroup_rowDelay (s : State) (k : Nat) (f : Group → Group) : (s.updGroup k f).rowDelay = s.rowDelay := rfl
@[simp] theorem State.updGroup_rows (s : State) (k : Nat) (f : Group → Group) : (s.updGroup k f).rows = s.rows := rfl
@[simp] theorem State.updGroup_spent (s : State) (k : Nat) (f : Group → Group) : (s.updGroup k f).spent = s.spent := rfl
@[simp] theorem State.updGroup_sliceWait (s : State) (k : Nat) (f : Group → Group) : (s.updGroup k f).sliceWait = s.sliceWait := rfl
@[simp] theorem State.updGroup_fwRegions (s : State) (k : Nat) (f : Group → Group) : (s.updGroup k f).fwRegions = s.fwRegions := rfl
@[simp] theorem State.updGroup_vfs (s : State) (k : Nat) (f : Group → Group) : (s.updGroup k f).vfs = s.vfs := rfl
@[simp] theorem State.updGroup_contexts (s : State) (k : Nat) (f : Group → Group) : (s.updGroup k f).contexts = s.contexts := rfl
@[simp] theorem State.updGroup_launches (s : State) (k : Nat) (f : Group → Group) : (s.updGroup k f).launches = s.launches := rfl
@[simp] theorem State.updGroup_nextLaunch (s : State) (k : Nat) (f : Group → Group) : (s.updGroup k f).nextLaunch = s.nextLaunch := rfl
@[simp] theorem State.updGroup_crews (s : State) (k : Nat) (f : Group → Group) : (s.updGroup k f).crews = s.crews := rfl
@[simp] theorem State.updGroup_nextCrew (s : State) (k : Nat) (f : Group → Group) : (s.updGroup k f).nextCrew = s.nextCrew := rfl
@[simp] theorem State.updGroup_groups (s : State) (k : Nat) (f : Group → Group) :
    (s.updGroup k f).groups = s.groups.upd k f := rfl
@[simp] theorem State.updGroup_cores (s : State) (k : Nat) (f : Group → Group) : (s.updGroup k f).cores = s.cores := rfl
@[simp] theorem State.updGroup_clusters (s : State) (k : Nat) (f : Group → Group) : (s.updGroup k f).clusters = s.clusters := rfl
@[simp] theorem State.updGroup_queues (s : State) (k : Nat) (f : Group → Group) : (s.updGroup k f).queues = s.queues := rfl
@[simp] theorem State.updGroup_slots (s : State) (k : Nat) (f : Group → Group) : (s.updGroup k f).slots = s.slots := rfl
@[simp] theorem State.updGroup_nrwaits (s : State) (k : Nat) (f : Group → Group) : (s.updGroup k f).nrwaits = s.nrwaits := rfl
@[simp] theorem State.updGroup_streams (s : State) (k : Nat) (f : Group → Group) : (s.updGroup k f).streams = s.streams := rfl
@[simp] theorem State.updGroup_shoreQ (s : State) (k : Nat) (f : Group → Group) : (s.updGroup k f).shoreQ = s.shoreQ := rfl
@[simp] theorem State.updGroup_shoreHeld (s : State) (k : Nat) (f : Group → Group) : (s.updGroup k f).shoreHeld = s.shoreHeld := rfl
@[simp] theorem State.updGroup_sets (s : State) (k : Nat) (f : Group → Group) : (s.updGroup k f).sets = s.sets := rfl
@[simp] theorem State.updGroup_tlb (s : State) (k : Nat) (f : Group → Group) : (s.updGroup k f).tlb = s.tlb := rfl
@[simp] theorem State.updGroup_walks (s : State) (k : Nat) (f : Group → Group) : (s.updGroup k f).walks = s.walks := rfl
@[simp] theorem State.updGroup_pending (s : State) (k : Nat) (f : Group → Group) : (s.updGroup k f).pending = s.pending := rfl
@[simp] theorem State.updGroup_deadRings (s : State) (k : Nat) (f : Group → Group) : (s.updGroup k f).deadRings = s.deadRings := rfl
@[simp] theorem State.updGroup_txs (s : State) (k : Nat) (f : Group → Group) : (s.updGroup k f).txs = s.txs := rfl
@[simp] theorem State.updGroup_inbound (s : State) (k : Nat) (f : Group → Group) : (s.updGroup k f).inbound = s.inbound := rfl
@[simp] theorem State.updGroup_nextTx (s : State) (k : Nat) (f : Group → Group) : (s.updGroup k f).nextTx = s.nextTx := rfl
@[simp] theorem State.updGroup_sent (s : State) (k : Nat) (f : Group → Group) : (s.updGroup k f).sent = s.sent := rfl
@[simp] theorem State.updGroup_bundles (s : State) (k : Nat) (f : Group → Group) : (s.updGroup k f).bundles = s.bundles := rfl

/-! ### putGroup changes `groups` alone -/

@[simp] theorem State.putGroup_mem (s : State) (k : Nat) (g : Group) : (s.putGroup k g).mem = s.mem := rfl
@[simp] theorem State.putGroup_badLines (s : State) (k : Nat) (g : Group) : (s.putGroup k g).badLines = s.badLines := rfl
@[simp] theorem State.putGroup_deadLines (s : State) (k : Nat) (g : Group) : (s.putGroup k g).deadLines = s.deadLines := rfl
@[simp] theorem State.putGroup_tick (s : State) (k : Nat) (g : Group) : (s.putGroup k g).tick = s.tick := rfl
@[simp] theorem State.putGroup_cycle (s : State) (k : Nat) (g : Group) : (s.putGroup k g).cycle = s.cycle := rfl
@[simp] theorem State.putGroup_agenda (s : State) (k : Nat) (g : Group) : (s.putGroup k g).agenda = s.agenda := rfl
@[simp] theorem State.putGroup_cur (s : State) (k : Nat) (g : Group) : (s.putGroup k g).cur = s.cur := rfl
@[simp] theorem State.putGroup_dies (s : State) (k : Nat) (g : Group) : (s.putGroup k g).dies = s.dies := rfl
@[simp] theorem State.putGroup_image (s : State) (k : Nat) (g : Group) : (s.putGroup k g).image = s.image := rfl
@[simp] theorem State.putGroup_minVersion (s : State) (k : Nat) (g : Group) : (s.putGroup k g).minVersion = s.minVersion := rfl
@[simp] theorem State.putGroup_refTime (s : State) (k : Nat) (g : Group) : (s.putGroup k g).refTime = s.refTime := rfl
@[simp] theorem State.putGroup_clkStep (s : State) (k : Nat) (g : Group) : (s.putGroup k g).clkStep = s.clkStep := rfl
@[simp] theorem State.putGroup_frozen (s : State) (k : Nat) (g : Group) : (s.putGroup k g).frozen = s.frozen := rfl
@[simp] theorem State.putGroup_frozenAt (s : State) (k : Nat) (g : Group) : (s.putGroup k g).frozenAt = s.frozenAt := rfl
@[simp] theorem State.putGroup_watts (s : State) (k : Nat) (g : Group) : (s.putGroup k g).watts = s.watts := rfl
@[simp] theorem State.putGroup_remap (s : State) (k : Nat) (g : Group) : (s.putGroup k g).remap = s.remap := rfl
@[simp] theorem State.putGroup_remapCores (s : State) (k : Nat) (g : Group) : (s.putGroup k g).remapCores = s.remapCores := rfl
@[simp] theorem State.putGroup_remapSlices (s : State) (k : Nat) (g : Group) : (s.putGroup k g).remapSlices = s.remapSlices := rfl
@[simp] theorem State.putGroup_hidden (s : State) (k : Nat) (g : Group) : (s.putGroup k g).hidden = s.hidden := rfl
@[simp] theorem State.putGroup_spareUsed (s : State) (k : Nat) (g : Group) : (s.putGroup k g).spareUsed = s.spareUsed := rfl
@[simp] theorem State.putGroup_absent (s : State) (k : Nat) (g : Group) : (s.putGroup k g).absent = s.absent := rfl
@[simp] theorem State.putGroup_evq (s : State) (k : Nat) (g : Group) : (s.putGroup k g).evq = s.evq := rfl
@[simp] theorem State.putGroup_links (s : State) (k : Nat) (g : Group) : (s.putGroup k g).links = s.links := rfl
@[simp] theorem State.putGroup_ports (s : State) (k : Nat) (g : Group) : (s.putGroup k g).ports = s.ports := rfl
@[simp] theorem State.putGroup_srams (s : State) (k : Nat) (g : Group) : (s.putGroup k g).srams = s.srams := rfl
@[simp] theorem State.putGroup_routersOff (s : State) (k : Nat) (g : Group) : (s.putGroup k g).routersOff = s.routersOff := rfl
@[simp] theorem State.putGroup_routersWoke (s : State) (k : Nat) (g : Group) : (s.putGroup k g).routersWoke = s.routersWoke := rfl
@[simp] theorem State.putGroup_rowThresh (s : State) (k : Nat) (g : Group) : (s.putGroup k g).rowThresh = s.rowThresh := rfl
@[simp] theorem State.putGroup_rowDelay (s : State) (k : Nat) (g : Group) : (s.putGroup k g).rowDelay = s.rowDelay := rfl
@[simp] theorem State.putGroup_rows (s : State) (k : Nat) (g : Group) : (s.putGroup k g).rows = s.rows := rfl
@[simp] theorem State.putGroup_spent (s : State) (k : Nat) (g : Group) : (s.putGroup k g).spent = s.spent := rfl
@[simp] theorem State.putGroup_sliceWait (s : State) (k : Nat) (g : Group) : (s.putGroup k g).sliceWait = s.sliceWait := rfl
@[simp] theorem State.putGroup_fwRegions (s : State) (k : Nat) (g : Group) : (s.putGroup k g).fwRegions = s.fwRegions := rfl
@[simp] theorem State.putGroup_vfs (s : State) (k : Nat) (g : Group) : (s.putGroup k g).vfs = s.vfs := rfl
@[simp] theorem State.putGroup_contexts (s : State) (k : Nat) (g : Group) : (s.putGroup k g).contexts = s.contexts := rfl
@[simp] theorem State.putGroup_launches (s : State) (k : Nat) (g : Group) : (s.putGroup k g).launches = s.launches := rfl
@[simp] theorem State.putGroup_nextLaunch (s : State) (k : Nat) (g : Group) : (s.putGroup k g).nextLaunch = s.nextLaunch := rfl
@[simp] theorem State.putGroup_crews (s : State) (k : Nat) (g : Group) : (s.putGroup k g).crews = s.crews := rfl
@[simp] theorem State.putGroup_nextCrew (s : State) (k : Nat) (g : Group) : (s.putGroup k g).nextCrew = s.nextCrew := rfl
@[simp] theorem State.putGroup_groups (s : State) (k : Nat) (g : Group) :
    (s.putGroup k g).groups = s.groups.put k g := rfl
@[simp] theorem State.putGroup_cores (s : State) (k : Nat) (g : Group) : (s.putGroup k g).cores = s.cores := rfl
@[simp] theorem State.putGroup_clusters (s : State) (k : Nat) (g : Group) : (s.putGroup k g).clusters = s.clusters := rfl
@[simp] theorem State.putGroup_queues (s : State) (k : Nat) (g : Group) : (s.putGroup k g).queues = s.queues := rfl
@[simp] theorem State.putGroup_slots (s : State) (k : Nat) (g : Group) : (s.putGroup k g).slots = s.slots := rfl
@[simp] theorem State.putGroup_nrwaits (s : State) (k : Nat) (g : Group) : (s.putGroup k g).nrwaits = s.nrwaits := rfl
@[simp] theorem State.putGroup_streams (s : State) (k : Nat) (g : Group) : (s.putGroup k g).streams = s.streams := rfl
@[simp] theorem State.putGroup_shoreQ (s : State) (k : Nat) (g : Group) : (s.putGroup k g).shoreQ = s.shoreQ := rfl
@[simp] theorem State.putGroup_shoreHeld (s : State) (k : Nat) (g : Group) : (s.putGroup k g).shoreHeld = s.shoreHeld := rfl
@[simp] theorem State.putGroup_sets (s : State) (k : Nat) (g : Group) : (s.putGroup k g).sets = s.sets := rfl
@[simp] theorem State.putGroup_tlb (s : State) (k : Nat) (g : Group) : (s.putGroup k g).tlb = s.tlb := rfl
@[simp] theorem State.putGroup_walks (s : State) (k : Nat) (g : Group) : (s.putGroup k g).walks = s.walks := rfl
@[simp] theorem State.putGroup_pending (s : State) (k : Nat) (g : Group) : (s.putGroup k g).pending = s.pending := rfl
@[simp] theorem State.putGroup_deadRings (s : State) (k : Nat) (g : Group) : (s.putGroup k g).deadRings = s.deadRings := rfl
@[simp] theorem State.putGroup_txs (s : State) (k : Nat) (g : Group) : (s.putGroup k g).txs = s.txs := rfl
@[simp] theorem State.putGroup_inbound (s : State) (k : Nat) (g : Group) : (s.putGroup k g).inbound = s.inbound := rfl
@[simp] theorem State.putGroup_nextTx (s : State) (k : Nat) (g : Group) : (s.putGroup k g).nextTx = s.nextTx := rfl
@[simp] theorem State.putGroup_sent (s : State) (k : Nat) (g : Group) : (s.putGroup k g).sent = s.sent := rfl
@[simp] theorem State.putGroup_bundles (s : State) (k : Nat) (g : Group) : (s.putGroup k g).bundles = s.bundles := rfl

/-! ### updEntry changes `groups` alone -/

@[simp] theorem State.updEntry_mem (s : State) (k i : Nat) (f : Entry → Entry) : (s.updEntry k i f).mem = s.mem := rfl
@[simp] theorem State.updEntry_badLines (s : State) (k i : Nat) (f : Entry → Entry) : (s.updEntry k i f).badLines = s.badLines := rfl
@[simp] theorem State.updEntry_deadLines (s : State) (k i : Nat) (f : Entry → Entry) : (s.updEntry k i f).deadLines = s.deadLines := rfl
@[simp] theorem State.updEntry_tick (s : State) (k i : Nat) (f : Entry → Entry) : (s.updEntry k i f).tick = s.tick := rfl
@[simp] theorem State.updEntry_cycle (s : State) (k i : Nat) (f : Entry → Entry) : (s.updEntry k i f).cycle = s.cycle := rfl
@[simp] theorem State.updEntry_agenda (s : State) (k i : Nat) (f : Entry → Entry) : (s.updEntry k i f).agenda = s.agenda := rfl
@[simp] theorem State.updEntry_cur (s : State) (k i : Nat) (f : Entry → Entry) : (s.updEntry k i f).cur = s.cur := rfl
@[simp] theorem State.updEntry_dies (s : State) (k i : Nat) (f : Entry → Entry) : (s.updEntry k i f).dies = s.dies := rfl
@[simp] theorem State.updEntry_image (s : State) (k i : Nat) (f : Entry → Entry) : (s.updEntry k i f).image = s.image := rfl
@[simp] theorem State.updEntry_minVersion (s : State) (k i : Nat) (f : Entry → Entry) : (s.updEntry k i f).minVersion = s.minVersion := rfl
@[simp] theorem State.updEntry_refTime (s : State) (k i : Nat) (f : Entry → Entry) : (s.updEntry k i f).refTime = s.refTime := rfl
@[simp] theorem State.updEntry_clkStep (s : State) (k i : Nat) (f : Entry → Entry) : (s.updEntry k i f).clkStep = s.clkStep := rfl
@[simp] theorem State.updEntry_frozen (s : State) (k i : Nat) (f : Entry → Entry) : (s.updEntry k i f).frozen = s.frozen := rfl
@[simp] theorem State.updEntry_frozenAt (s : State) (k i : Nat) (f : Entry → Entry) : (s.updEntry k i f).frozenAt = s.frozenAt := rfl
@[simp] theorem State.updEntry_watts (s : State) (k i : Nat) (f : Entry → Entry) : (s.updEntry k i f).watts = s.watts := rfl
@[simp] theorem State.updEntry_remap (s : State) (k i : Nat) (f : Entry → Entry) : (s.updEntry k i f).remap = s.remap := rfl
@[simp] theorem State.updEntry_remapCores (s : State) (k i : Nat) (f : Entry → Entry) : (s.updEntry k i f).remapCores = s.remapCores := rfl
@[simp] theorem State.updEntry_remapSlices (s : State) (k i : Nat) (f : Entry → Entry) : (s.updEntry k i f).remapSlices = s.remapSlices := rfl
@[simp] theorem State.updEntry_hidden (s : State) (k i : Nat) (f : Entry → Entry) : (s.updEntry k i f).hidden = s.hidden := rfl
@[simp] theorem State.updEntry_spareUsed (s : State) (k i : Nat) (f : Entry → Entry) : (s.updEntry k i f).spareUsed = s.spareUsed := rfl
@[simp] theorem State.updEntry_absent (s : State) (k i : Nat) (f : Entry → Entry) : (s.updEntry k i f).absent = s.absent := rfl
@[simp] theorem State.updEntry_evq (s : State) (k i : Nat) (f : Entry → Entry) : (s.updEntry k i f).evq = s.evq := rfl
@[simp] theorem State.updEntry_links (s : State) (k i : Nat) (f : Entry → Entry) : (s.updEntry k i f).links = s.links := rfl
@[simp] theorem State.updEntry_ports (s : State) (k i : Nat) (f : Entry → Entry) : (s.updEntry k i f).ports = s.ports := rfl
@[simp] theorem State.updEntry_srams (s : State) (k i : Nat) (f : Entry → Entry) : (s.updEntry k i f).srams = s.srams := rfl
@[simp] theorem State.updEntry_routersOff (s : State) (k i : Nat) (f : Entry → Entry) : (s.updEntry k i f).routersOff = s.routersOff := rfl
@[simp] theorem State.updEntry_routersWoke (s : State) (k i : Nat) (f : Entry → Entry) : (s.updEntry k i f).routersWoke = s.routersWoke := rfl
@[simp] theorem State.updEntry_rowThresh (s : State) (k i : Nat) (f : Entry → Entry) : (s.updEntry k i f).rowThresh = s.rowThresh := rfl
@[simp] theorem State.updEntry_rowDelay (s : State) (k i : Nat) (f : Entry → Entry) : (s.updEntry k i f).rowDelay = s.rowDelay := rfl
@[simp] theorem State.updEntry_rows (s : State) (k i : Nat) (f : Entry → Entry) : (s.updEntry k i f).rows = s.rows := rfl
@[simp] theorem State.updEntry_spent (s : State) (k i : Nat) (f : Entry → Entry) : (s.updEntry k i f).spent = s.spent := rfl
@[simp] theorem State.updEntry_sliceWait (s : State) (k i : Nat) (f : Entry → Entry) : (s.updEntry k i f).sliceWait = s.sliceWait := rfl
@[simp] theorem State.updEntry_fwRegions (s : State) (k i : Nat) (f : Entry → Entry) : (s.updEntry k i f).fwRegions = s.fwRegions := rfl
@[simp] theorem State.updEntry_vfs (s : State) (k i : Nat) (f : Entry → Entry) : (s.updEntry k i f).vfs = s.vfs := rfl
@[simp] theorem State.updEntry_contexts (s : State) (k i : Nat) (f : Entry → Entry) : (s.updEntry k i f).contexts = s.contexts := rfl
@[simp] theorem State.updEntry_launches (s : State) (k i : Nat) (f : Entry → Entry) : (s.updEntry k i f).launches = s.launches := rfl
@[simp] theorem State.updEntry_nextLaunch (s : State) (k i : Nat) (f : Entry → Entry) : (s.updEntry k i f).nextLaunch = s.nextLaunch := rfl
@[simp] theorem State.updEntry_crews (s : State) (k i : Nat) (f : Entry → Entry) : (s.updEntry k i f).crews = s.crews := rfl
@[simp] theorem State.updEntry_nextCrew (s : State) (k i : Nat) (f : Entry → Entry) : (s.updEntry k i f).nextCrew = s.nextCrew := rfl
@[simp] theorem State.updEntry_cores (s : State) (k i : Nat) (f : Entry → Entry) : (s.updEntry k i f).cores = s.cores := rfl
@[simp] theorem State.updEntry_clusters (s : State) (k i : Nat) (f : Entry → Entry) : (s.updEntry k i f).clusters = s.clusters := rfl
@[simp] theorem State.updEntry_queues (s : State) (k i : Nat) (f : Entry → Entry) : (s.updEntry k i f).queues = s.queues := rfl
@[simp] theorem State.updEntry_slots (s : State) (k i : Nat) (f : Entry → Entry) : (s.updEntry k i f).slots = s.slots := rfl
@[simp] theorem State.updEntry_nrwaits (s : State) (k i : Nat) (f : Entry → Entry) : (s.updEntry k i f).nrwaits = s.nrwaits := rfl
@[simp] theorem State.updEntry_streams (s : State) (k i : Nat) (f : Entry → Entry) : (s.updEntry k i f).streams = s.streams := rfl
@[simp] theorem State.updEntry_shoreQ (s : State) (k i : Nat) (f : Entry → Entry) : (s.updEntry k i f).shoreQ = s.shoreQ := rfl
@[simp] theorem State.updEntry_shoreHeld (s : State) (k i : Nat) (f : Entry → Entry) : (s.updEntry k i f).shoreHeld = s.shoreHeld := rfl
@[simp] theorem State.updEntry_sets (s : State) (k i : Nat) (f : Entry → Entry) : (s.updEntry k i f).sets = s.sets := rfl
@[simp] theorem State.updEntry_tlb (s : State) (k i : Nat) (f : Entry → Entry) : (s.updEntry k i f).tlb = s.tlb := rfl
@[simp] theorem State.updEntry_walks (s : State) (k i : Nat) (f : Entry → Entry) : (s.updEntry k i f).walks = s.walks := rfl
@[simp] theorem State.updEntry_pending (s : State) (k i : Nat) (f : Entry → Entry) : (s.updEntry k i f).pending = s.pending := rfl
@[simp] theorem State.updEntry_deadRings (s : State) (k i : Nat) (f : Entry → Entry) : (s.updEntry k i f).deadRings = s.deadRings := rfl
@[simp] theorem State.updEntry_txs (s : State) (k i : Nat) (f : Entry → Entry) : (s.updEntry k i f).txs = s.txs := rfl
@[simp] theorem State.updEntry_inbound (s : State) (k i : Nat) (f : Entry → Entry) : (s.updEntry k i f).inbound = s.inbound := rfl
@[simp] theorem State.updEntry_nextTx (s : State) (k i : Nat) (f : Entry → Entry) : (s.updEntry k i f).nextTx = s.nextTx := rfl
@[simp] theorem State.updEntry_sent (s : State) (k i : Nat) (f : Entry → Entry) : (s.updEntry k i f).sent = s.sent := rfl
@[simp] theorem State.updEntry_bundles (s : State) (k i : Nat) (f : Entry → Entry) : (s.updEntry k i f).bundles = s.bundles := rfl

/-! ### block changes `groups` alone -/

@[simp] theorem State.block_mem (s : State) (k i : Nat) : (s.block k i).mem = s.mem := rfl
@[simp] theorem State.block_badLines (s : State) (k i : Nat) : (s.block k i).badLines = s.badLines := rfl
@[simp] theorem State.block_deadLines (s : State) (k i : Nat) : (s.block k i).deadLines = s.deadLines := rfl
@[simp] theorem State.block_tick (s : State) (k i : Nat) : (s.block k i).tick = s.tick := rfl
@[simp] theorem State.block_cycle (s : State) (k i : Nat) : (s.block k i).cycle = s.cycle := rfl
@[simp] theorem State.block_agenda (s : State) (k i : Nat) : (s.block k i).agenda = s.agenda := rfl
@[simp] theorem State.block_cur (s : State) (k i : Nat) : (s.block k i).cur = s.cur := rfl
@[simp] theorem State.block_dies (s : State) (k i : Nat) : (s.block k i).dies = s.dies := rfl
@[simp] theorem State.block_image (s : State) (k i : Nat) : (s.block k i).image = s.image := rfl
@[simp] theorem State.block_minVersion (s : State) (k i : Nat) : (s.block k i).minVersion = s.minVersion := rfl
@[simp] theorem State.block_refTime (s : State) (k i : Nat) : (s.block k i).refTime = s.refTime := rfl
@[simp] theorem State.block_clkStep (s : State) (k i : Nat) : (s.block k i).clkStep = s.clkStep := rfl
@[simp] theorem State.block_frozen (s : State) (k i : Nat) : (s.block k i).frozen = s.frozen := rfl
@[simp] theorem State.block_frozenAt (s : State) (k i : Nat) : (s.block k i).frozenAt = s.frozenAt := rfl
@[simp] theorem State.block_watts (s : State) (k i : Nat) : (s.block k i).watts = s.watts := rfl
@[simp] theorem State.block_remap (s : State) (k i : Nat) : (s.block k i).remap = s.remap := rfl
@[simp] theorem State.block_remapCores (s : State) (k i : Nat) : (s.block k i).remapCores = s.remapCores := rfl
@[simp] theorem State.block_remapSlices (s : State) (k i : Nat) : (s.block k i).remapSlices = s.remapSlices := rfl
@[simp] theorem State.block_hidden (s : State) (k i : Nat) : (s.block k i).hidden = s.hidden := rfl
@[simp] theorem State.block_spareUsed (s : State) (k i : Nat) : (s.block k i).spareUsed = s.spareUsed := rfl
@[simp] theorem State.block_absent (s : State) (k i : Nat) : (s.block k i).absent = s.absent := rfl
@[simp] theorem State.block_evq (s : State) (k i : Nat) : (s.block k i).evq = s.evq := rfl
@[simp] theorem State.block_links (s : State) (k i : Nat) : (s.block k i).links = s.links := rfl
@[simp] theorem State.block_ports (s : State) (k i : Nat) : (s.block k i).ports = s.ports := rfl
@[simp] theorem State.block_srams (s : State) (k i : Nat) : (s.block k i).srams = s.srams := rfl
@[simp] theorem State.block_routersOff (s : State) (k i : Nat) : (s.block k i).routersOff = s.routersOff := rfl
@[simp] theorem State.block_routersWoke (s : State) (k i : Nat) : (s.block k i).routersWoke = s.routersWoke := rfl
@[simp] theorem State.block_rowThresh (s : State) (k i : Nat) : (s.block k i).rowThresh = s.rowThresh := rfl
@[simp] theorem State.block_rowDelay (s : State) (k i : Nat) : (s.block k i).rowDelay = s.rowDelay := rfl
@[simp] theorem State.block_rows (s : State) (k i : Nat) : (s.block k i).rows = s.rows := rfl
@[simp] theorem State.block_spent (s : State) (k i : Nat) : (s.block k i).spent = s.spent := rfl
@[simp] theorem State.block_sliceWait (s : State) (k i : Nat) : (s.block k i).sliceWait = s.sliceWait := rfl
@[simp] theorem State.block_fwRegions (s : State) (k i : Nat) : (s.block k i).fwRegions = s.fwRegions := rfl
@[simp] theorem State.block_vfs (s : State) (k i : Nat) : (s.block k i).vfs = s.vfs := rfl
@[simp] theorem State.block_contexts (s : State) (k i : Nat) : (s.block k i).contexts = s.contexts := rfl
@[simp] theorem State.block_launches (s : State) (k i : Nat) : (s.block k i).launches = s.launches := rfl
@[simp] theorem State.block_nextLaunch (s : State) (k i : Nat) : (s.block k i).nextLaunch = s.nextLaunch := rfl
@[simp] theorem State.block_crews (s : State) (k i : Nat) : (s.block k i).crews = s.crews := rfl
@[simp] theorem State.block_nextCrew (s : State) (k i : Nat) : (s.block k i).nextCrew = s.nextCrew := rfl
@[simp] theorem State.block_cores (s : State) (k i : Nat) : (s.block k i).cores = s.cores := rfl
@[simp] theorem State.block_clusters (s : State) (k i : Nat) : (s.block k i).clusters = s.clusters := rfl
@[simp] theorem State.block_queues (s : State) (k i : Nat) : (s.block k i).queues = s.queues := rfl
@[simp] theorem State.block_slots (s : State) (k i : Nat) : (s.block k i).slots = s.slots := rfl
@[simp] theorem State.block_nrwaits (s : State) (k i : Nat) : (s.block k i).nrwaits = s.nrwaits := rfl
@[simp] theorem State.block_streams (s : State) (k i : Nat) : (s.block k i).streams = s.streams := rfl
@[simp] theorem State.block_shoreQ (s : State) (k i : Nat) : (s.block k i).shoreQ = s.shoreQ := rfl
@[simp] theorem State.block_shoreHeld (s : State) (k i : Nat) : (s.block k i).shoreHeld = s.shoreHeld := rfl
@[simp] theorem State.block_sets (s : State) (k i : Nat) : (s.block k i).sets = s.sets := rfl
@[simp] theorem State.block_tlb (s : State) (k i : Nat) : (s.block k i).tlb = s.tlb := rfl
@[simp] theorem State.block_walks (s : State) (k i : Nat) : (s.block k i).walks = s.walks := rfl
@[simp] theorem State.block_pending (s : State) (k i : Nat) : (s.block k i).pending = s.pending := rfl
@[simp] theorem State.block_deadRings (s : State) (k i : Nat) : (s.block k i).deadRings = s.deadRings := rfl
@[simp] theorem State.block_txs (s : State) (k i : Nat) : (s.block k i).txs = s.txs := rfl
@[simp] theorem State.block_inbound (s : State) (k i : Nat) : (s.block k i).inbound = s.inbound := rfl
@[simp] theorem State.block_nextTx (s : State) (k i : Nat) : (s.block k i).nextTx = s.nextTx := rfl
@[simp] theorem State.block_sent (s : State) (k i : Nat) : (s.block k i).sent = s.sent := rfl
@[simp] theorem State.block_bundles (s : State) (k i : Nat) : (s.block k i).bundles = s.bundles := rfl

/-! ### finish changes `groups` alone -/

@[simp] theorem State.finish_mem (s : State) (k i : Nat) : (s.finish k i).mem = s.mem := rfl
@[simp] theorem State.finish_badLines (s : State) (k i : Nat) : (s.finish k i).badLines = s.badLines := rfl
@[simp] theorem State.finish_deadLines (s : State) (k i : Nat) : (s.finish k i).deadLines = s.deadLines := rfl
@[simp] theorem State.finish_tick (s : State) (k i : Nat) : (s.finish k i).tick = s.tick := rfl
@[simp] theorem State.finish_cycle (s : State) (k i : Nat) : (s.finish k i).cycle = s.cycle := rfl
@[simp] theorem State.finish_agenda (s : State) (k i : Nat) : (s.finish k i).agenda = s.agenda := rfl
@[simp] theorem State.finish_cur (s : State) (k i : Nat) : (s.finish k i).cur = s.cur := rfl
@[simp] theorem State.finish_dies (s : State) (k i : Nat) : (s.finish k i).dies = s.dies := rfl
@[simp] theorem State.finish_image (s : State) (k i : Nat) : (s.finish k i).image = s.image := rfl
@[simp] theorem State.finish_minVersion (s : State) (k i : Nat) : (s.finish k i).minVersion = s.minVersion := rfl
@[simp] theorem State.finish_refTime (s : State) (k i : Nat) : (s.finish k i).refTime = s.refTime := rfl
@[simp] theorem State.finish_clkStep (s : State) (k i : Nat) : (s.finish k i).clkStep = s.clkStep := rfl
@[simp] theorem State.finish_frozen (s : State) (k i : Nat) : (s.finish k i).frozen = s.frozen := rfl
@[simp] theorem State.finish_frozenAt (s : State) (k i : Nat) : (s.finish k i).frozenAt = s.frozenAt := rfl
@[simp] theorem State.finish_watts (s : State) (k i : Nat) : (s.finish k i).watts = s.watts := rfl
@[simp] theorem State.finish_remap (s : State) (k i : Nat) : (s.finish k i).remap = s.remap := rfl
@[simp] theorem State.finish_remapCores (s : State) (k i : Nat) : (s.finish k i).remapCores = s.remapCores := rfl
@[simp] theorem State.finish_remapSlices (s : State) (k i : Nat) : (s.finish k i).remapSlices = s.remapSlices := rfl
@[simp] theorem State.finish_hidden (s : State) (k i : Nat) : (s.finish k i).hidden = s.hidden := rfl
@[simp] theorem State.finish_spareUsed (s : State) (k i : Nat) : (s.finish k i).spareUsed = s.spareUsed := rfl
@[simp] theorem State.finish_absent (s : State) (k i : Nat) : (s.finish k i).absent = s.absent := rfl
@[simp] theorem State.finish_evq (s : State) (k i : Nat) : (s.finish k i).evq = s.evq := rfl
@[simp] theorem State.finish_links (s : State) (k i : Nat) : (s.finish k i).links = s.links := rfl
@[simp] theorem State.finish_ports (s : State) (k i : Nat) : (s.finish k i).ports = s.ports := rfl
@[simp] theorem State.finish_srams (s : State) (k i : Nat) : (s.finish k i).srams = s.srams := rfl
@[simp] theorem State.finish_routersOff (s : State) (k i : Nat) : (s.finish k i).routersOff = s.routersOff := rfl
@[simp] theorem State.finish_routersWoke (s : State) (k i : Nat) : (s.finish k i).routersWoke = s.routersWoke := rfl
@[simp] theorem State.finish_rowThresh (s : State) (k i : Nat) : (s.finish k i).rowThresh = s.rowThresh := rfl
@[simp] theorem State.finish_rowDelay (s : State) (k i : Nat) : (s.finish k i).rowDelay = s.rowDelay := rfl
@[simp] theorem State.finish_rows (s : State) (k i : Nat) : (s.finish k i).rows = s.rows := rfl
@[simp] theorem State.finish_spent (s : State) (k i : Nat) : (s.finish k i).spent = s.spent := rfl
@[simp] theorem State.finish_sliceWait (s : State) (k i : Nat) : (s.finish k i).sliceWait = s.sliceWait := rfl
@[simp] theorem State.finish_fwRegions (s : State) (k i : Nat) : (s.finish k i).fwRegions = s.fwRegions := rfl
@[simp] theorem State.finish_vfs (s : State) (k i : Nat) : (s.finish k i).vfs = s.vfs := rfl
@[simp] theorem State.finish_contexts (s : State) (k i : Nat) : (s.finish k i).contexts = s.contexts := rfl
@[simp] theorem State.finish_launches (s : State) (k i : Nat) : (s.finish k i).launches = s.launches := rfl
@[simp] theorem State.finish_nextLaunch (s : State) (k i : Nat) : (s.finish k i).nextLaunch = s.nextLaunch := rfl
@[simp] theorem State.finish_crews (s : State) (k i : Nat) : (s.finish k i).crews = s.crews := rfl
@[simp] theorem State.finish_nextCrew (s : State) (k i : Nat) : (s.finish k i).nextCrew = s.nextCrew := rfl
@[simp] theorem State.finish_cores (s : State) (k i : Nat) : (s.finish k i).cores = s.cores := rfl
@[simp] theorem State.finish_clusters (s : State) (k i : Nat) : (s.finish k i).clusters = s.clusters := rfl
@[simp] theorem State.finish_queues (s : State) (k i : Nat) : (s.finish k i).queues = s.queues := rfl
@[simp] theorem State.finish_slots (s : State) (k i : Nat) : (s.finish k i).slots = s.slots := rfl
@[simp] theorem State.finish_nrwaits (s : State) (k i : Nat) : (s.finish k i).nrwaits = s.nrwaits := rfl
@[simp] theorem State.finish_streams (s : State) (k i : Nat) : (s.finish k i).streams = s.streams := rfl
@[simp] theorem State.finish_shoreQ (s : State) (k i : Nat) : (s.finish k i).shoreQ = s.shoreQ := rfl
@[simp] theorem State.finish_shoreHeld (s : State) (k i : Nat) : (s.finish k i).shoreHeld = s.shoreHeld := rfl
@[simp] theorem State.finish_sets (s : State) (k i : Nat) : (s.finish k i).sets = s.sets := rfl
@[simp] theorem State.finish_tlb (s : State) (k i : Nat) : (s.finish k i).tlb = s.tlb := rfl
@[simp] theorem State.finish_walks (s : State) (k i : Nat) : (s.finish k i).walks = s.walks := rfl
@[simp] theorem State.finish_pending (s : State) (k i : Nat) : (s.finish k i).pending = s.pending := rfl
@[simp] theorem State.finish_deadRings (s : State) (k i : Nat) : (s.finish k i).deadRings = s.deadRings := rfl
@[simp] theorem State.finish_txs (s : State) (k i : Nat) : (s.finish k i).txs = s.txs := rfl
@[simp] theorem State.finish_inbound (s : State) (k i : Nat) : (s.finish k i).inbound = s.inbound := rfl
@[simp] theorem State.finish_nextTx (s : State) (k i : Nat) : (s.finish k i).nextTx = s.nextTx := rfl
@[simp] theorem State.finish_sent (s : State) (k i : Nat) : (s.finish k i).sent = s.sent := rfl
@[simp] theorem State.finish_bundles (s : State) (k i : Nat) : (s.finish k i).bundles = s.bundles := rfl

/-! ### updVf changes `vfs` alone -/

@[simp] theorem State.updVf_mem (s : State) (k : Nat) (f : VF → VF) : (s.updVf k f).mem = s.mem := rfl
@[simp] theorem State.updVf_badLines (s : State) (k : Nat) (f : VF → VF) : (s.updVf k f).badLines = s.badLines := rfl
@[simp] theorem State.updVf_deadLines (s : State) (k : Nat) (f : VF → VF) : (s.updVf k f).deadLines = s.deadLines := rfl
@[simp] theorem State.updVf_tick (s : State) (k : Nat) (f : VF → VF) : (s.updVf k f).tick = s.tick := rfl
@[simp] theorem State.updVf_cycle (s : State) (k : Nat) (f : VF → VF) : (s.updVf k f).cycle = s.cycle := rfl
@[simp] theorem State.updVf_agenda (s : State) (k : Nat) (f : VF → VF) : (s.updVf k f).agenda = s.agenda := rfl
@[simp] theorem State.updVf_cur (s : State) (k : Nat) (f : VF → VF) : (s.updVf k f).cur = s.cur := rfl
@[simp] theorem State.updVf_dies (s : State) (k : Nat) (f : VF → VF) : (s.updVf k f).dies = s.dies := rfl
@[simp] theorem State.updVf_image (s : State) (k : Nat) (f : VF → VF) : (s.updVf k f).image = s.image := rfl
@[simp] theorem State.updVf_minVersion (s : State) (k : Nat) (f : VF → VF) : (s.updVf k f).minVersion = s.minVersion := rfl
@[simp] theorem State.updVf_refTime (s : State) (k : Nat) (f : VF → VF) : (s.updVf k f).refTime = s.refTime := rfl
@[simp] theorem State.updVf_clkStep (s : State) (k : Nat) (f : VF → VF) : (s.updVf k f).clkStep = s.clkStep := rfl
@[simp] theorem State.updVf_frozen (s : State) (k : Nat) (f : VF → VF) : (s.updVf k f).frozen = s.frozen := rfl
@[simp] theorem State.updVf_frozenAt (s : State) (k : Nat) (f : VF → VF) : (s.updVf k f).frozenAt = s.frozenAt := rfl
@[simp] theorem State.updVf_watts (s : State) (k : Nat) (f : VF → VF) : (s.updVf k f).watts = s.watts := rfl
@[simp] theorem State.updVf_remap (s : State) (k : Nat) (f : VF → VF) : (s.updVf k f).remap = s.remap := rfl
@[simp] theorem State.updVf_remapCores (s : State) (k : Nat) (f : VF → VF) : (s.updVf k f).remapCores = s.remapCores := rfl
@[simp] theorem State.updVf_remapSlices (s : State) (k : Nat) (f : VF → VF) : (s.updVf k f).remapSlices = s.remapSlices := rfl
@[simp] theorem State.updVf_hidden (s : State) (k : Nat) (f : VF → VF) : (s.updVf k f).hidden = s.hidden := rfl
@[simp] theorem State.updVf_spareUsed (s : State) (k : Nat) (f : VF → VF) : (s.updVf k f).spareUsed = s.spareUsed := rfl
@[simp] theorem State.updVf_absent (s : State) (k : Nat) (f : VF → VF) : (s.updVf k f).absent = s.absent := rfl
@[simp] theorem State.updVf_evq (s : State) (k : Nat) (f : VF → VF) : (s.updVf k f).evq = s.evq := rfl
@[simp] theorem State.updVf_links (s : State) (k : Nat) (f : VF → VF) : (s.updVf k f).links = s.links := rfl
@[simp] theorem State.updVf_ports (s : State) (k : Nat) (f : VF → VF) : (s.updVf k f).ports = s.ports := rfl
@[simp] theorem State.updVf_srams (s : State) (k : Nat) (f : VF → VF) : (s.updVf k f).srams = s.srams := rfl
@[simp] theorem State.updVf_routersOff (s : State) (k : Nat) (f : VF → VF) : (s.updVf k f).routersOff = s.routersOff := rfl
@[simp] theorem State.updVf_routersWoke (s : State) (k : Nat) (f : VF → VF) : (s.updVf k f).routersWoke = s.routersWoke := rfl
@[simp] theorem State.updVf_rowThresh (s : State) (k : Nat) (f : VF → VF) : (s.updVf k f).rowThresh = s.rowThresh := rfl
@[simp] theorem State.updVf_rowDelay (s : State) (k : Nat) (f : VF → VF) : (s.updVf k f).rowDelay = s.rowDelay := rfl
@[simp] theorem State.updVf_rows (s : State) (k : Nat) (f : VF → VF) : (s.updVf k f).rows = s.rows := rfl
@[simp] theorem State.updVf_spent (s : State) (k : Nat) (f : VF → VF) : (s.updVf k f).spent = s.spent := rfl
@[simp] theorem State.updVf_sliceWait (s : State) (k : Nat) (f : VF → VF) : (s.updVf k f).sliceWait = s.sliceWait := rfl
@[simp] theorem State.updVf_fwRegions (s : State) (k : Nat) (f : VF → VF) : (s.updVf k f).fwRegions = s.fwRegions := rfl
@[simp] theorem State.updVf_vfs (s : State) (k : Nat) (f : VF → VF) :
    (s.updVf k f).vfs = s.vfs.upd k f := rfl
@[simp] theorem State.updVf_contexts (s : State) (k : Nat) (f : VF → VF) : (s.updVf k f).contexts = s.contexts := rfl
@[simp] theorem State.updVf_launches (s : State) (k : Nat) (f : VF → VF) : (s.updVf k f).launches = s.launches := rfl
@[simp] theorem State.updVf_nextLaunch (s : State) (k : Nat) (f : VF → VF) : (s.updVf k f).nextLaunch = s.nextLaunch := rfl
@[simp] theorem State.updVf_crews (s : State) (k : Nat) (f : VF → VF) : (s.updVf k f).crews = s.crews := rfl
@[simp] theorem State.updVf_nextCrew (s : State) (k : Nat) (f : VF → VF) : (s.updVf k f).nextCrew = s.nextCrew := rfl
@[simp] theorem State.updVf_groups (s : State) (k : Nat) (f : VF → VF) : (s.updVf k f).groups = s.groups := rfl
@[simp] theorem State.updVf_cores (s : State) (k : Nat) (f : VF → VF) : (s.updVf k f).cores = s.cores := rfl
@[simp] theorem State.updVf_clusters (s : State) (k : Nat) (f : VF → VF) : (s.updVf k f).clusters = s.clusters := rfl
@[simp] theorem State.updVf_queues (s : State) (k : Nat) (f : VF → VF) : (s.updVf k f).queues = s.queues := rfl
@[simp] theorem State.updVf_slots (s : State) (k : Nat) (f : VF → VF) : (s.updVf k f).slots = s.slots := rfl
@[simp] theorem State.updVf_nrwaits (s : State) (k : Nat) (f : VF → VF) : (s.updVf k f).nrwaits = s.nrwaits := rfl
@[simp] theorem State.updVf_streams (s : State) (k : Nat) (f : VF → VF) : (s.updVf k f).streams = s.streams := rfl
@[simp] theorem State.updVf_shoreQ (s : State) (k : Nat) (f : VF → VF) : (s.updVf k f).shoreQ = s.shoreQ := rfl
@[simp] theorem State.updVf_shoreHeld (s : State) (k : Nat) (f : VF → VF) : (s.updVf k f).shoreHeld = s.shoreHeld := rfl
@[simp] theorem State.updVf_sets (s : State) (k : Nat) (f : VF → VF) : (s.updVf k f).sets = s.sets := rfl
@[simp] theorem State.updVf_tlb (s : State) (k : Nat) (f : VF → VF) : (s.updVf k f).tlb = s.tlb := rfl
@[simp] theorem State.updVf_walks (s : State) (k : Nat) (f : VF → VF) : (s.updVf k f).walks = s.walks := rfl
@[simp] theorem State.updVf_pending (s : State) (k : Nat) (f : VF → VF) : (s.updVf k f).pending = s.pending := rfl
@[simp] theorem State.updVf_deadRings (s : State) (k : Nat) (f : VF → VF) : (s.updVf k f).deadRings = s.deadRings := rfl
@[simp] theorem State.updVf_txs (s : State) (k : Nat) (f : VF → VF) : (s.updVf k f).txs = s.txs := rfl
@[simp] theorem State.updVf_inbound (s : State) (k : Nat) (f : VF → VF) : (s.updVf k f).inbound = s.inbound := rfl
@[simp] theorem State.updVf_nextTx (s : State) (k : Nat) (f : VF → VF) : (s.updVf k f).nextTx = s.nextTx := rfl
@[simp] theorem State.updVf_sent (s : State) (k : Nat) (f : VF → VF) : (s.updVf k f).sent = s.sent := rfl
@[simp] theorem State.updVf_bundles (s : State) (k : Nat) (f : VF → VF) : (s.updVf k f).bundles = s.bundles := rfl

/-! ### updCtx changes `contexts` alone -/

@[simp] theorem State.updCtx_mem (s : State) (k : Nat) (f : Context → Context) : (s.updCtx k f).mem = s.mem := rfl
@[simp] theorem State.updCtx_badLines (s : State) (k : Nat) (f : Context → Context) : (s.updCtx k f).badLines = s.badLines := rfl
@[simp] theorem State.updCtx_deadLines (s : State) (k : Nat) (f : Context → Context) : (s.updCtx k f).deadLines = s.deadLines := rfl
@[simp] theorem State.updCtx_tick (s : State) (k : Nat) (f : Context → Context) : (s.updCtx k f).tick = s.tick := rfl
@[simp] theorem State.updCtx_cycle (s : State) (k : Nat) (f : Context → Context) : (s.updCtx k f).cycle = s.cycle := rfl
@[simp] theorem State.updCtx_agenda (s : State) (k : Nat) (f : Context → Context) : (s.updCtx k f).agenda = s.agenda := rfl
@[simp] theorem State.updCtx_cur (s : State) (k : Nat) (f : Context → Context) : (s.updCtx k f).cur = s.cur := rfl
@[simp] theorem State.updCtx_dies (s : State) (k : Nat) (f : Context → Context) : (s.updCtx k f).dies = s.dies := rfl
@[simp] theorem State.updCtx_image (s : State) (k : Nat) (f : Context → Context) : (s.updCtx k f).image = s.image := rfl
@[simp] theorem State.updCtx_minVersion (s : State) (k : Nat) (f : Context → Context) : (s.updCtx k f).minVersion = s.minVersion := rfl
@[simp] theorem State.updCtx_refTime (s : State) (k : Nat) (f : Context → Context) : (s.updCtx k f).refTime = s.refTime := rfl
@[simp] theorem State.updCtx_clkStep (s : State) (k : Nat) (f : Context → Context) : (s.updCtx k f).clkStep = s.clkStep := rfl
@[simp] theorem State.updCtx_frozen (s : State) (k : Nat) (f : Context → Context) : (s.updCtx k f).frozen = s.frozen := rfl
@[simp] theorem State.updCtx_frozenAt (s : State) (k : Nat) (f : Context → Context) : (s.updCtx k f).frozenAt = s.frozenAt := rfl
@[simp] theorem State.updCtx_watts (s : State) (k : Nat) (f : Context → Context) : (s.updCtx k f).watts = s.watts := rfl
@[simp] theorem State.updCtx_remap (s : State) (k : Nat) (f : Context → Context) : (s.updCtx k f).remap = s.remap := rfl
@[simp] theorem State.updCtx_remapCores (s : State) (k : Nat) (f : Context → Context) : (s.updCtx k f).remapCores = s.remapCores := rfl
@[simp] theorem State.updCtx_remapSlices (s : State) (k : Nat) (f : Context → Context) : (s.updCtx k f).remapSlices = s.remapSlices := rfl
@[simp] theorem State.updCtx_hidden (s : State) (k : Nat) (f : Context → Context) : (s.updCtx k f).hidden = s.hidden := rfl
@[simp] theorem State.updCtx_spareUsed (s : State) (k : Nat) (f : Context → Context) : (s.updCtx k f).spareUsed = s.spareUsed := rfl
@[simp] theorem State.updCtx_absent (s : State) (k : Nat) (f : Context → Context) : (s.updCtx k f).absent = s.absent := rfl
@[simp] theorem State.updCtx_evq (s : State) (k : Nat) (f : Context → Context) : (s.updCtx k f).evq = s.evq := rfl
@[simp] theorem State.updCtx_links (s : State) (k : Nat) (f : Context → Context) : (s.updCtx k f).links = s.links := rfl
@[simp] theorem State.updCtx_ports (s : State) (k : Nat) (f : Context → Context) : (s.updCtx k f).ports = s.ports := rfl
@[simp] theorem State.updCtx_srams (s : State) (k : Nat) (f : Context → Context) : (s.updCtx k f).srams = s.srams := rfl
@[simp] theorem State.updCtx_routersOff (s : State) (k : Nat) (f : Context → Context) : (s.updCtx k f).routersOff = s.routersOff := rfl
@[simp] theorem State.updCtx_routersWoke (s : State) (k : Nat) (f : Context → Context) : (s.updCtx k f).routersWoke = s.routersWoke := rfl
@[simp] theorem State.updCtx_rowThresh (s : State) (k : Nat) (f : Context → Context) : (s.updCtx k f).rowThresh = s.rowThresh := rfl
@[simp] theorem State.updCtx_rowDelay (s : State) (k : Nat) (f : Context → Context) : (s.updCtx k f).rowDelay = s.rowDelay := rfl
@[simp] theorem State.updCtx_rows (s : State) (k : Nat) (f : Context → Context) : (s.updCtx k f).rows = s.rows := rfl
@[simp] theorem State.updCtx_spent (s : State) (k : Nat) (f : Context → Context) : (s.updCtx k f).spent = s.spent := rfl
@[simp] theorem State.updCtx_sliceWait (s : State) (k : Nat) (f : Context → Context) : (s.updCtx k f).sliceWait = s.sliceWait := rfl
@[simp] theorem State.updCtx_fwRegions (s : State) (k : Nat) (f : Context → Context) : (s.updCtx k f).fwRegions = s.fwRegions := rfl
@[simp] theorem State.updCtx_vfs (s : State) (k : Nat) (f : Context → Context) : (s.updCtx k f).vfs = s.vfs := rfl
@[simp] theorem State.updCtx_contexts (s : State) (k : Nat) (f : Context → Context) :
    (s.updCtx k f).contexts = s.contexts.upd k f := rfl
@[simp] theorem State.updCtx_launches (s : State) (k : Nat) (f : Context → Context) : (s.updCtx k f).launches = s.launches := rfl
@[simp] theorem State.updCtx_nextLaunch (s : State) (k : Nat) (f : Context → Context) : (s.updCtx k f).nextLaunch = s.nextLaunch := rfl
@[simp] theorem State.updCtx_crews (s : State) (k : Nat) (f : Context → Context) : (s.updCtx k f).crews = s.crews := rfl
@[simp] theorem State.updCtx_nextCrew (s : State) (k : Nat) (f : Context → Context) : (s.updCtx k f).nextCrew = s.nextCrew := rfl
@[simp] theorem State.updCtx_groups (s : State) (k : Nat) (f : Context → Context) : (s.updCtx k f).groups = s.groups := rfl
@[simp] theorem State.updCtx_cores (s : State) (k : Nat) (f : Context → Context) : (s.updCtx k f).cores = s.cores := rfl
@[simp] theorem State.updCtx_clusters (s : State) (k : Nat) (f : Context → Context) : (s.updCtx k f).clusters = s.clusters := rfl
@[simp] theorem State.updCtx_queues (s : State) (k : Nat) (f : Context → Context) : (s.updCtx k f).queues = s.queues := rfl
@[simp] theorem State.updCtx_slots (s : State) (k : Nat) (f : Context → Context) : (s.updCtx k f).slots = s.slots := rfl
@[simp] theorem State.updCtx_nrwaits (s : State) (k : Nat) (f : Context → Context) : (s.updCtx k f).nrwaits = s.nrwaits := rfl
@[simp] theorem State.updCtx_streams (s : State) (k : Nat) (f : Context → Context) : (s.updCtx k f).streams = s.streams := rfl
@[simp] theorem State.updCtx_shoreQ (s : State) (k : Nat) (f : Context → Context) : (s.updCtx k f).shoreQ = s.shoreQ := rfl
@[simp] theorem State.updCtx_shoreHeld (s : State) (k : Nat) (f : Context → Context) : (s.updCtx k f).shoreHeld = s.shoreHeld := rfl
@[simp] theorem State.updCtx_sets (s : State) (k : Nat) (f : Context → Context) : (s.updCtx k f).sets = s.sets := rfl
@[simp] theorem State.updCtx_tlb (s : State) (k : Nat) (f : Context → Context) : (s.updCtx k f).tlb = s.tlb := rfl
@[simp] theorem State.updCtx_walks (s : State) (k : Nat) (f : Context → Context) : (s.updCtx k f).walks = s.walks := rfl
@[simp] theorem State.updCtx_pending (s : State) (k : Nat) (f : Context → Context) : (s.updCtx k f).pending = s.pending := rfl
@[simp] theorem State.updCtx_deadRings (s : State) (k : Nat) (f : Context → Context) : (s.updCtx k f).deadRings = s.deadRings := rfl
@[simp] theorem State.updCtx_txs (s : State) (k : Nat) (f : Context → Context) : (s.updCtx k f).txs = s.txs := rfl
@[simp] theorem State.updCtx_inbound (s : State) (k : Nat) (f : Context → Context) : (s.updCtx k f).inbound = s.inbound := rfl
@[simp] theorem State.updCtx_nextTx (s : State) (k : Nat) (f : Context → Context) : (s.updCtx k f).nextTx = s.nextTx := rfl
@[simp] theorem State.updCtx_sent (s : State) (k : Nat) (f : Context → Context) : (s.updCtx k f).sent = s.sent := rfl
@[simp] theorem State.updCtx_bundles (s : State) (k : Nat) (f : Context → Context) : (s.updCtx k f).bundles = s.bundles := rfl

/-! ### updCore changes `cores` alone -/

@[simp] theorem State.updCore_mem (s : State) (k : Nat) (f : Core → Core) : (s.updCore k f).mem = s.mem := rfl
@[simp] theorem State.updCore_badLines (s : State) (k : Nat) (f : Core → Core) : (s.updCore k f).badLines = s.badLines := rfl
@[simp] theorem State.updCore_deadLines (s : State) (k : Nat) (f : Core → Core) : (s.updCore k f).deadLines = s.deadLines := rfl
@[simp] theorem State.updCore_tick (s : State) (k : Nat) (f : Core → Core) : (s.updCore k f).tick = s.tick := rfl
@[simp] theorem State.updCore_cycle (s : State) (k : Nat) (f : Core → Core) : (s.updCore k f).cycle = s.cycle := rfl
@[simp] theorem State.updCore_agenda (s : State) (k : Nat) (f : Core → Core) : (s.updCore k f).agenda = s.agenda := rfl
@[simp] theorem State.updCore_cur (s : State) (k : Nat) (f : Core → Core) : (s.updCore k f).cur = s.cur := rfl
@[simp] theorem State.updCore_dies (s : State) (k : Nat) (f : Core → Core) : (s.updCore k f).dies = s.dies := rfl
@[simp] theorem State.updCore_image (s : State) (k : Nat) (f : Core → Core) : (s.updCore k f).image = s.image := rfl
@[simp] theorem State.updCore_minVersion (s : State) (k : Nat) (f : Core → Core) : (s.updCore k f).minVersion = s.minVersion := rfl
@[simp] theorem State.updCore_refTime (s : State) (k : Nat) (f : Core → Core) : (s.updCore k f).refTime = s.refTime := rfl
@[simp] theorem State.updCore_clkStep (s : State) (k : Nat) (f : Core → Core) : (s.updCore k f).clkStep = s.clkStep := rfl
@[simp] theorem State.updCore_frozen (s : State) (k : Nat) (f : Core → Core) : (s.updCore k f).frozen = s.frozen := rfl
@[simp] theorem State.updCore_frozenAt (s : State) (k : Nat) (f : Core → Core) : (s.updCore k f).frozenAt = s.frozenAt := rfl
@[simp] theorem State.updCore_watts (s : State) (k : Nat) (f : Core → Core) : (s.updCore k f).watts = s.watts := rfl
@[simp] theorem State.updCore_remap (s : State) (k : Nat) (f : Core → Core) : (s.updCore k f).remap = s.remap := rfl
@[simp] theorem State.updCore_remapCores (s : State) (k : Nat) (f : Core → Core) : (s.updCore k f).remapCores = s.remapCores := rfl
@[simp] theorem State.updCore_remapSlices (s : State) (k : Nat) (f : Core → Core) : (s.updCore k f).remapSlices = s.remapSlices := rfl
@[simp] theorem State.updCore_hidden (s : State) (k : Nat) (f : Core → Core) : (s.updCore k f).hidden = s.hidden := rfl
@[simp] theorem State.updCore_spareUsed (s : State) (k : Nat) (f : Core → Core) : (s.updCore k f).spareUsed = s.spareUsed := rfl
@[simp] theorem State.updCore_absent (s : State) (k : Nat) (f : Core → Core) : (s.updCore k f).absent = s.absent := rfl
@[simp] theorem State.updCore_evq (s : State) (k : Nat) (f : Core → Core) : (s.updCore k f).evq = s.evq := rfl
@[simp] theorem State.updCore_links (s : State) (k : Nat) (f : Core → Core) : (s.updCore k f).links = s.links := rfl
@[simp] theorem State.updCore_ports (s : State) (k : Nat) (f : Core → Core) : (s.updCore k f).ports = s.ports := rfl
@[simp] theorem State.updCore_srams (s : State) (k : Nat) (f : Core → Core) : (s.updCore k f).srams = s.srams := rfl
@[simp] theorem State.updCore_routersOff (s : State) (k : Nat) (f : Core → Core) : (s.updCore k f).routersOff = s.routersOff := rfl
@[simp] theorem State.updCore_routersWoke (s : State) (k : Nat) (f : Core → Core) : (s.updCore k f).routersWoke = s.routersWoke := rfl
@[simp] theorem State.updCore_rowThresh (s : State) (k : Nat) (f : Core → Core) : (s.updCore k f).rowThresh = s.rowThresh := rfl
@[simp] theorem State.updCore_rowDelay (s : State) (k : Nat) (f : Core → Core) : (s.updCore k f).rowDelay = s.rowDelay := rfl
@[simp] theorem State.updCore_rows (s : State) (k : Nat) (f : Core → Core) : (s.updCore k f).rows = s.rows := rfl
@[simp] theorem State.updCore_spent (s : State) (k : Nat) (f : Core → Core) : (s.updCore k f).spent = s.spent := rfl
@[simp] theorem State.updCore_sliceWait (s : State) (k : Nat) (f : Core → Core) : (s.updCore k f).sliceWait = s.sliceWait := rfl
@[simp] theorem State.updCore_fwRegions (s : State) (k : Nat) (f : Core → Core) : (s.updCore k f).fwRegions = s.fwRegions := rfl
@[simp] theorem State.updCore_vfs (s : State) (k : Nat) (f : Core → Core) : (s.updCore k f).vfs = s.vfs := rfl
@[simp] theorem State.updCore_contexts (s : State) (k : Nat) (f : Core → Core) : (s.updCore k f).contexts = s.contexts := rfl
@[simp] theorem State.updCore_launches (s : State) (k : Nat) (f : Core → Core) : (s.updCore k f).launches = s.launches := rfl
@[simp] theorem State.updCore_nextLaunch (s : State) (k : Nat) (f : Core → Core) : (s.updCore k f).nextLaunch = s.nextLaunch := rfl
@[simp] theorem State.updCore_crews (s : State) (k : Nat) (f : Core → Core) : (s.updCore k f).crews = s.crews := rfl
@[simp] theorem State.updCore_nextCrew (s : State) (k : Nat) (f : Core → Core) : (s.updCore k f).nextCrew = s.nextCrew := rfl
@[simp] theorem State.updCore_groups (s : State) (k : Nat) (f : Core → Core) : (s.updCore k f).groups = s.groups := rfl
@[simp] theorem State.updCore_cores (s : State) (k : Nat) (f : Core → Core) :
    (s.updCore k f).cores = s.cores.put k (f (s.core k)) := rfl
@[simp] theorem State.updCore_clusters (s : State) (k : Nat) (f : Core → Core) : (s.updCore k f).clusters = s.clusters := rfl
@[simp] theorem State.updCore_queues (s : State) (k : Nat) (f : Core → Core) : (s.updCore k f).queues = s.queues := rfl
@[simp] theorem State.updCore_slots (s : State) (k : Nat) (f : Core → Core) : (s.updCore k f).slots = s.slots := rfl
@[simp] theorem State.updCore_nrwaits (s : State) (k : Nat) (f : Core → Core) : (s.updCore k f).nrwaits = s.nrwaits := rfl
@[simp] theorem State.updCore_streams (s : State) (k : Nat) (f : Core → Core) : (s.updCore k f).streams = s.streams := rfl
@[simp] theorem State.updCore_shoreQ (s : State) (k : Nat) (f : Core → Core) : (s.updCore k f).shoreQ = s.shoreQ := rfl
@[simp] theorem State.updCore_shoreHeld (s : State) (k : Nat) (f : Core → Core) : (s.updCore k f).shoreHeld = s.shoreHeld := rfl
@[simp] theorem State.updCore_sets (s : State) (k : Nat) (f : Core → Core) : (s.updCore k f).sets = s.sets := rfl
@[simp] theorem State.updCore_tlb (s : State) (k : Nat) (f : Core → Core) : (s.updCore k f).tlb = s.tlb := rfl
@[simp] theorem State.updCore_walks (s : State) (k : Nat) (f : Core → Core) : (s.updCore k f).walks = s.walks := rfl
@[simp] theorem State.updCore_pending (s : State) (k : Nat) (f : Core → Core) : (s.updCore k f).pending = s.pending := rfl
@[simp] theorem State.updCore_deadRings (s : State) (k : Nat) (f : Core → Core) : (s.updCore k f).deadRings = s.deadRings := rfl
@[simp] theorem State.updCore_txs (s : State) (k : Nat) (f : Core → Core) : (s.updCore k f).txs = s.txs := rfl
@[simp] theorem State.updCore_inbound (s : State) (k : Nat) (f : Core → Core) : (s.updCore k f).inbound = s.inbound := rfl
@[simp] theorem State.updCore_nextTx (s : State) (k : Nat) (f : Core → Core) : (s.updCore k f).nextTx = s.nextTx := rfl
@[simp] theorem State.updCore_sent (s : State) (k : Nat) (f : Core → Core) : (s.updCore k f).sent = s.sent := rfl
@[simp] theorem State.updCore_bundles (s : State) (k : Nat) (f : Core → Core) : (s.updCore k f).bundles = s.bundles := rfl

/-! ### updCluster changes `clusters` alone -/

@[simp] theorem State.updCluster_mem (s : State) (k : Nat) (f : Cluster → Cluster) : (s.updCluster k f).mem = s.mem := rfl
@[simp] theorem State.updCluster_badLines (s : State) (k : Nat) (f : Cluster → Cluster) : (s.updCluster k f).badLines = s.badLines := rfl
@[simp] theorem State.updCluster_deadLines (s : State) (k : Nat) (f : Cluster → Cluster) : (s.updCluster k f).deadLines = s.deadLines := rfl
@[simp] theorem State.updCluster_tick (s : State) (k : Nat) (f : Cluster → Cluster) : (s.updCluster k f).tick = s.tick := rfl
@[simp] theorem State.updCluster_cycle (s : State) (k : Nat) (f : Cluster → Cluster) : (s.updCluster k f).cycle = s.cycle := rfl
@[simp] theorem State.updCluster_agenda (s : State) (k : Nat) (f : Cluster → Cluster) : (s.updCluster k f).agenda = s.agenda := rfl
@[simp] theorem State.updCluster_cur (s : State) (k : Nat) (f : Cluster → Cluster) : (s.updCluster k f).cur = s.cur := rfl
@[simp] theorem State.updCluster_dies (s : State) (k : Nat) (f : Cluster → Cluster) : (s.updCluster k f).dies = s.dies := rfl
@[simp] theorem State.updCluster_image (s : State) (k : Nat) (f : Cluster → Cluster) : (s.updCluster k f).image = s.image := rfl
@[simp] theorem State.updCluster_minVersion (s : State) (k : Nat) (f : Cluster → Cluster) : (s.updCluster k f).minVersion = s.minVersion := rfl
@[simp] theorem State.updCluster_refTime (s : State) (k : Nat) (f : Cluster → Cluster) : (s.updCluster k f).refTime = s.refTime := rfl
@[simp] theorem State.updCluster_clkStep (s : State) (k : Nat) (f : Cluster → Cluster) : (s.updCluster k f).clkStep = s.clkStep := rfl
@[simp] theorem State.updCluster_frozen (s : State) (k : Nat) (f : Cluster → Cluster) : (s.updCluster k f).frozen = s.frozen := rfl
@[simp] theorem State.updCluster_frozenAt (s : State) (k : Nat) (f : Cluster → Cluster) : (s.updCluster k f).frozenAt = s.frozenAt := rfl
@[simp] theorem State.updCluster_watts (s : State) (k : Nat) (f : Cluster → Cluster) : (s.updCluster k f).watts = s.watts := rfl
@[simp] theorem State.updCluster_remap (s : State) (k : Nat) (f : Cluster → Cluster) : (s.updCluster k f).remap = s.remap := rfl
@[simp] theorem State.updCluster_remapCores (s : State) (k : Nat) (f : Cluster → Cluster) : (s.updCluster k f).remapCores = s.remapCores := rfl
@[simp] theorem State.updCluster_remapSlices (s : State) (k : Nat) (f : Cluster → Cluster) : (s.updCluster k f).remapSlices = s.remapSlices := rfl
@[simp] theorem State.updCluster_hidden (s : State) (k : Nat) (f : Cluster → Cluster) : (s.updCluster k f).hidden = s.hidden := rfl
@[simp] theorem State.updCluster_spareUsed (s : State) (k : Nat) (f : Cluster → Cluster) : (s.updCluster k f).spareUsed = s.spareUsed := rfl
@[simp] theorem State.updCluster_absent (s : State) (k : Nat) (f : Cluster → Cluster) : (s.updCluster k f).absent = s.absent := rfl
@[simp] theorem State.updCluster_evq (s : State) (k : Nat) (f : Cluster → Cluster) : (s.updCluster k f).evq = s.evq := rfl
@[simp] theorem State.updCluster_links (s : State) (k : Nat) (f : Cluster → Cluster) : (s.updCluster k f).links = s.links := rfl
@[simp] theorem State.updCluster_ports (s : State) (k : Nat) (f : Cluster → Cluster) : (s.updCluster k f).ports = s.ports := rfl
@[simp] theorem State.updCluster_srams (s : State) (k : Nat) (f : Cluster → Cluster) : (s.updCluster k f).srams = s.srams := rfl
@[simp] theorem State.updCluster_routersOff (s : State) (k : Nat) (f : Cluster → Cluster) : (s.updCluster k f).routersOff = s.routersOff := rfl
@[simp] theorem State.updCluster_routersWoke (s : State) (k : Nat) (f : Cluster → Cluster) : (s.updCluster k f).routersWoke = s.routersWoke := rfl
@[simp] theorem State.updCluster_rowThresh (s : State) (k : Nat) (f : Cluster → Cluster) : (s.updCluster k f).rowThresh = s.rowThresh := rfl
@[simp] theorem State.updCluster_rowDelay (s : State) (k : Nat) (f : Cluster → Cluster) : (s.updCluster k f).rowDelay = s.rowDelay := rfl
@[simp] theorem State.updCluster_rows (s : State) (k : Nat) (f : Cluster → Cluster) : (s.updCluster k f).rows = s.rows := rfl
@[simp] theorem State.updCluster_spent (s : State) (k : Nat) (f : Cluster → Cluster) : (s.updCluster k f).spent = s.spent := rfl
@[simp] theorem State.updCluster_sliceWait (s : State) (k : Nat) (f : Cluster → Cluster) : (s.updCluster k f).sliceWait = s.sliceWait := rfl
@[simp] theorem State.updCluster_fwRegions (s : State) (k : Nat) (f : Cluster → Cluster) : (s.updCluster k f).fwRegions = s.fwRegions := rfl
@[simp] theorem State.updCluster_vfs (s : State) (k : Nat) (f : Cluster → Cluster) : (s.updCluster k f).vfs = s.vfs := rfl
@[simp] theorem State.updCluster_contexts (s : State) (k : Nat) (f : Cluster → Cluster) : (s.updCluster k f).contexts = s.contexts := rfl
@[simp] theorem State.updCluster_launches (s : State) (k : Nat) (f : Cluster → Cluster) : (s.updCluster k f).launches = s.launches := rfl
@[simp] theorem State.updCluster_nextLaunch (s : State) (k : Nat) (f : Cluster → Cluster) : (s.updCluster k f).nextLaunch = s.nextLaunch := rfl
@[simp] theorem State.updCluster_crews (s : State) (k : Nat) (f : Cluster → Cluster) : (s.updCluster k f).crews = s.crews := rfl
@[simp] theorem State.updCluster_nextCrew (s : State) (k : Nat) (f : Cluster → Cluster) : (s.updCluster k f).nextCrew = s.nextCrew := rfl
@[simp] theorem State.updCluster_groups (s : State) (k : Nat) (f : Cluster → Cluster) : (s.updCluster k f).groups = s.groups := rfl
@[simp] theorem State.updCluster_cores (s : State) (k : Nat) (f : Cluster → Cluster) : (s.updCluster k f).cores = s.cores := rfl
@[simp] theorem State.updCluster_clusters (s : State) (k : Nat) (f : Cluster → Cluster) :
    (s.updCluster k f).clusters = s.clusters.put k (f (s.cluster k)) := rfl
@[simp] theorem State.updCluster_queues (s : State) (k : Nat) (f : Cluster → Cluster) : (s.updCluster k f).queues = s.queues := rfl
@[simp] theorem State.updCluster_slots (s : State) (k : Nat) (f : Cluster → Cluster) : (s.updCluster k f).slots = s.slots := rfl
@[simp] theorem State.updCluster_nrwaits (s : State) (k : Nat) (f : Cluster → Cluster) : (s.updCluster k f).nrwaits = s.nrwaits := rfl
@[simp] theorem State.updCluster_streams (s : State) (k : Nat) (f : Cluster → Cluster) : (s.updCluster k f).streams = s.streams := rfl
@[simp] theorem State.updCluster_shoreQ (s : State) (k : Nat) (f : Cluster → Cluster) : (s.updCluster k f).shoreQ = s.shoreQ := rfl
@[simp] theorem State.updCluster_shoreHeld (s : State) (k : Nat) (f : Cluster → Cluster) : (s.updCluster k f).shoreHeld = s.shoreHeld := rfl
@[simp] theorem State.updCluster_sets (s : State) (k : Nat) (f : Cluster → Cluster) : (s.updCluster k f).sets = s.sets := rfl
@[simp] theorem State.updCluster_tlb (s : State) (k : Nat) (f : Cluster → Cluster) : (s.updCluster k f).tlb = s.tlb := rfl
@[simp] theorem State.updCluster_walks (s : State) (k : Nat) (f : Cluster → Cluster) : (s.updCluster k f).walks = s.walks := rfl
@[simp] theorem State.updCluster_pending (s : State) (k : Nat) (f : Cluster → Cluster) : (s.updCluster k f).pending = s.pending := rfl
@[simp] theorem State.updCluster_deadRings (s : State) (k : Nat) (f : Cluster → Cluster) : (s.updCluster k f).deadRings = s.deadRings := rfl
@[simp] theorem State.updCluster_txs (s : State) (k : Nat) (f : Cluster → Cluster) : (s.updCluster k f).txs = s.txs := rfl
@[simp] theorem State.updCluster_inbound (s : State) (k : Nat) (f : Cluster → Cluster) : (s.updCluster k f).inbound = s.inbound := rfl
@[simp] theorem State.updCluster_nextTx (s : State) (k : Nat) (f : Cluster → Cluster) : (s.updCluster k f).nextTx = s.nextTx := rfl
@[simp] theorem State.updCluster_sent (s : State) (k : Nat) (f : Cluster → Cluster) : (s.updCluster k f).sent = s.sent := rfl
@[simp] theorem State.updCluster_bundles (s : State) (k : Nat) (f : Cluster → Cluster) : (s.updCluster k f).bundles = s.bundles := rfl

/-! ### updCrew changes `crews` alone -/

@[simp] theorem State.updCrew_mem (s : State) (k : Nat) (f : Crew → Crew) : (s.updCrew k f).mem = s.mem := rfl
@[simp] theorem State.updCrew_badLines (s : State) (k : Nat) (f : Crew → Crew) : (s.updCrew k f).badLines = s.badLines := rfl
@[simp] theorem State.updCrew_deadLines (s : State) (k : Nat) (f : Crew → Crew) : (s.updCrew k f).deadLines = s.deadLines := rfl
@[simp] theorem State.updCrew_tick (s : State) (k : Nat) (f : Crew → Crew) : (s.updCrew k f).tick = s.tick := rfl
@[simp] theorem State.updCrew_cycle (s : State) (k : Nat) (f : Crew → Crew) : (s.updCrew k f).cycle = s.cycle := rfl
@[simp] theorem State.updCrew_agenda (s : State) (k : Nat) (f : Crew → Crew) : (s.updCrew k f).agenda = s.agenda := rfl
@[simp] theorem State.updCrew_cur (s : State) (k : Nat) (f : Crew → Crew) : (s.updCrew k f).cur = s.cur := rfl
@[simp] theorem State.updCrew_dies (s : State) (k : Nat) (f : Crew → Crew) : (s.updCrew k f).dies = s.dies := rfl
@[simp] theorem State.updCrew_image (s : State) (k : Nat) (f : Crew → Crew) : (s.updCrew k f).image = s.image := rfl
@[simp] theorem State.updCrew_minVersion (s : State) (k : Nat) (f : Crew → Crew) : (s.updCrew k f).minVersion = s.minVersion := rfl
@[simp] theorem State.updCrew_refTime (s : State) (k : Nat) (f : Crew → Crew) : (s.updCrew k f).refTime = s.refTime := rfl
@[simp] theorem State.updCrew_clkStep (s : State) (k : Nat) (f : Crew → Crew) : (s.updCrew k f).clkStep = s.clkStep := rfl
@[simp] theorem State.updCrew_frozen (s : State) (k : Nat) (f : Crew → Crew) : (s.updCrew k f).frozen = s.frozen := rfl
@[simp] theorem State.updCrew_frozenAt (s : State) (k : Nat) (f : Crew → Crew) : (s.updCrew k f).frozenAt = s.frozenAt := rfl
@[simp] theorem State.updCrew_watts (s : State) (k : Nat) (f : Crew → Crew) : (s.updCrew k f).watts = s.watts := rfl
@[simp] theorem State.updCrew_remap (s : State) (k : Nat) (f : Crew → Crew) : (s.updCrew k f).remap = s.remap := rfl
@[simp] theorem State.updCrew_remapCores (s : State) (k : Nat) (f : Crew → Crew) : (s.updCrew k f).remapCores = s.remapCores := rfl
@[simp] theorem State.updCrew_remapSlices (s : State) (k : Nat) (f : Crew → Crew) : (s.updCrew k f).remapSlices = s.remapSlices := rfl
@[simp] theorem State.updCrew_hidden (s : State) (k : Nat) (f : Crew → Crew) : (s.updCrew k f).hidden = s.hidden := rfl
@[simp] theorem State.updCrew_spareUsed (s : State) (k : Nat) (f : Crew → Crew) : (s.updCrew k f).spareUsed = s.spareUsed := rfl
@[simp] theorem State.updCrew_absent (s : State) (k : Nat) (f : Crew → Crew) : (s.updCrew k f).absent = s.absent := rfl
@[simp] theorem State.updCrew_evq (s : State) (k : Nat) (f : Crew → Crew) : (s.updCrew k f).evq = s.evq := rfl
@[simp] theorem State.updCrew_links (s : State) (k : Nat) (f : Crew → Crew) : (s.updCrew k f).links = s.links := rfl
@[simp] theorem State.updCrew_ports (s : State) (k : Nat) (f : Crew → Crew) : (s.updCrew k f).ports = s.ports := rfl
@[simp] theorem State.updCrew_srams (s : State) (k : Nat) (f : Crew → Crew) : (s.updCrew k f).srams = s.srams := rfl
@[simp] theorem State.updCrew_routersOff (s : State) (k : Nat) (f : Crew → Crew) : (s.updCrew k f).routersOff = s.routersOff := rfl
@[simp] theorem State.updCrew_routersWoke (s : State) (k : Nat) (f : Crew → Crew) : (s.updCrew k f).routersWoke = s.routersWoke := rfl
@[simp] theorem State.updCrew_rowThresh (s : State) (k : Nat) (f : Crew → Crew) : (s.updCrew k f).rowThresh = s.rowThresh := rfl
@[simp] theorem State.updCrew_rowDelay (s : State) (k : Nat) (f : Crew → Crew) : (s.updCrew k f).rowDelay = s.rowDelay := rfl
@[simp] theorem State.updCrew_rows (s : State) (k : Nat) (f : Crew → Crew) : (s.updCrew k f).rows = s.rows := rfl
@[simp] theorem State.updCrew_spent (s : State) (k : Nat) (f : Crew → Crew) : (s.updCrew k f).spent = s.spent := rfl
@[simp] theorem State.updCrew_sliceWait (s : State) (k : Nat) (f : Crew → Crew) : (s.updCrew k f).sliceWait = s.sliceWait := rfl
@[simp] theorem State.updCrew_fwRegions (s : State) (k : Nat) (f : Crew → Crew) : (s.updCrew k f).fwRegions = s.fwRegions := rfl
@[simp] theorem State.updCrew_vfs (s : State) (k : Nat) (f : Crew → Crew) : (s.updCrew k f).vfs = s.vfs := rfl
@[simp] theorem State.updCrew_contexts (s : State) (k : Nat) (f : Crew → Crew) : (s.updCrew k f).contexts = s.contexts := rfl
@[simp] theorem State.updCrew_launches (s : State) (k : Nat) (f : Crew → Crew) : (s.updCrew k f).launches = s.launches := rfl
@[simp] theorem State.updCrew_nextLaunch (s : State) (k : Nat) (f : Crew → Crew) : (s.updCrew k f).nextLaunch = s.nextLaunch := rfl
@[simp] theorem State.updCrew_crews (s : State) (k : Nat) (f : Crew → Crew) :
    (s.updCrew k f).crews = s.crews.upd k f := rfl
@[simp] theorem State.updCrew_nextCrew (s : State) (k : Nat) (f : Crew → Crew) : (s.updCrew k f).nextCrew = s.nextCrew := rfl
@[simp] theorem State.updCrew_groups (s : State) (k : Nat) (f : Crew → Crew) : (s.updCrew k f).groups = s.groups := rfl
@[simp] theorem State.updCrew_cores (s : State) (k : Nat) (f : Crew → Crew) : (s.updCrew k f).cores = s.cores := rfl
@[simp] theorem State.updCrew_clusters (s : State) (k : Nat) (f : Crew → Crew) : (s.updCrew k f).clusters = s.clusters := rfl
@[simp] theorem State.updCrew_queues (s : State) (k : Nat) (f : Crew → Crew) : (s.updCrew k f).queues = s.queues := rfl
@[simp] theorem State.updCrew_slots (s : State) (k : Nat) (f : Crew → Crew) : (s.updCrew k f).slots = s.slots := rfl
@[simp] theorem State.updCrew_nrwaits (s : State) (k : Nat) (f : Crew → Crew) : (s.updCrew k f).nrwaits = s.nrwaits := rfl
@[simp] theorem State.updCrew_streams (s : State) (k : Nat) (f : Crew → Crew) : (s.updCrew k f).streams = s.streams := rfl
@[simp] theorem State.updCrew_shoreQ (s : State) (k : Nat) (f : Crew → Crew) : (s.updCrew k f).shoreQ = s.shoreQ := rfl
@[simp] theorem State.updCrew_shoreHeld (s : State) (k : Nat) (f : Crew → Crew) : (s.updCrew k f).shoreHeld = s.shoreHeld := rfl
@[simp] theorem State.updCrew_sets (s : State) (k : Nat) (f : Crew → Crew) : (s.updCrew k f).sets = s.sets := rfl
@[simp] theorem State.updCrew_tlb (s : State) (k : Nat) (f : Crew → Crew) : (s.updCrew k f).tlb = s.tlb := rfl
@[simp] theorem State.updCrew_walks (s : State) (k : Nat) (f : Crew → Crew) : (s.updCrew k f).walks = s.walks := rfl
@[simp] theorem State.updCrew_pending (s : State) (k : Nat) (f : Crew → Crew) : (s.updCrew k f).pending = s.pending := rfl
@[simp] theorem State.updCrew_deadRings (s : State) (k : Nat) (f : Crew → Crew) : (s.updCrew k f).deadRings = s.deadRings := rfl
@[simp] theorem State.updCrew_txs (s : State) (k : Nat) (f : Crew → Crew) : (s.updCrew k f).txs = s.txs := rfl
@[simp] theorem State.updCrew_inbound (s : State) (k : Nat) (f : Crew → Crew) : (s.updCrew k f).inbound = s.inbound := rfl
@[simp] theorem State.updCrew_nextTx (s : State) (k : Nat) (f : Crew → Crew) : (s.updCrew k f).nextTx = s.nextTx := rfl
@[simp] theorem State.updCrew_sent (s : State) (k : Nat) (f : Crew → Crew) : (s.updCrew k f).sent = s.sent := rfl
@[simp] theorem State.updCrew_bundles (s : State) (k : Nat) (f : Crew → Crew) : (s.updCrew k f).bundles = s.bundles := rfl

/-! ### send changes `sent` alone -/

@[simp] theorem State.send_mem (s : State) (m : Msg) : (s.send m).mem = s.mem := rfl
@[simp] theorem State.send_badLines (s : State) (m : Msg) : (s.send m).badLines = s.badLines := rfl
@[simp] theorem State.send_deadLines (s : State) (m : Msg) : (s.send m).deadLines = s.deadLines := rfl
@[simp] theorem State.send_tick (s : State) (m : Msg) : (s.send m).tick = s.tick := rfl
@[simp] theorem State.send_cycle (s : State) (m : Msg) : (s.send m).cycle = s.cycle := rfl
@[simp] theorem State.send_agenda (s : State) (m : Msg) : (s.send m).agenda = s.agenda := rfl
@[simp] theorem State.send_cur (s : State) (m : Msg) : (s.send m).cur = s.cur := rfl
@[simp] theorem State.send_dies (s : State) (m : Msg) : (s.send m).dies = s.dies := rfl
@[simp] theorem State.send_image (s : State) (m : Msg) : (s.send m).image = s.image := rfl
@[simp] theorem State.send_minVersion (s : State) (m : Msg) : (s.send m).minVersion = s.minVersion := rfl
@[simp] theorem State.send_refTime (s : State) (m : Msg) : (s.send m).refTime = s.refTime := rfl
@[simp] theorem State.send_clkStep (s : State) (m : Msg) : (s.send m).clkStep = s.clkStep := rfl
@[simp] theorem State.send_frozen (s : State) (m : Msg) : (s.send m).frozen = s.frozen := rfl
@[simp] theorem State.send_frozenAt (s : State) (m : Msg) : (s.send m).frozenAt = s.frozenAt := rfl
@[simp] theorem State.send_watts (s : State) (m : Msg) : (s.send m).watts = s.watts := rfl
@[simp] theorem State.send_remap (s : State) (m : Msg) : (s.send m).remap = s.remap := rfl
@[simp] theorem State.send_remapCores (s : State) (m : Msg) : (s.send m).remapCores = s.remapCores := rfl
@[simp] theorem State.send_remapSlices (s : State) (m : Msg) : (s.send m).remapSlices = s.remapSlices := rfl
@[simp] theorem State.send_hidden (s : State) (m : Msg) : (s.send m).hidden = s.hidden := rfl
@[simp] theorem State.send_spareUsed (s : State) (m : Msg) : (s.send m).spareUsed = s.spareUsed := rfl
@[simp] theorem State.send_absent (s : State) (m : Msg) : (s.send m).absent = s.absent := rfl
@[simp] theorem State.send_evq (s : State) (m : Msg) : (s.send m).evq = s.evq := rfl
@[simp] theorem State.send_links (s : State) (m : Msg) : (s.send m).links = s.links := rfl
@[simp] theorem State.send_ports (s : State) (m : Msg) : (s.send m).ports = s.ports := rfl
@[simp] theorem State.send_srams (s : State) (m : Msg) : (s.send m).srams = s.srams := rfl
@[simp] theorem State.send_routersOff (s : State) (m : Msg) : (s.send m).routersOff = s.routersOff := rfl
@[simp] theorem State.send_routersWoke (s : State) (m : Msg) : (s.send m).routersWoke = s.routersWoke := rfl
@[simp] theorem State.send_rowThresh (s : State) (m : Msg) : (s.send m).rowThresh = s.rowThresh := rfl
@[simp] theorem State.send_rowDelay (s : State) (m : Msg) : (s.send m).rowDelay = s.rowDelay := rfl
@[simp] theorem State.send_rows (s : State) (m : Msg) : (s.send m).rows = s.rows := rfl
@[simp] theorem State.send_spent (s : State) (m : Msg) : (s.send m).spent = s.spent := rfl
@[simp] theorem State.send_sliceWait (s : State) (m : Msg) : (s.send m).sliceWait = s.sliceWait := rfl
@[simp] theorem State.send_fwRegions (s : State) (m : Msg) : (s.send m).fwRegions = s.fwRegions := rfl
@[simp] theorem State.send_vfs (s : State) (m : Msg) : (s.send m).vfs = s.vfs := rfl
@[simp] theorem State.send_contexts (s : State) (m : Msg) : (s.send m).contexts = s.contexts := rfl
@[simp] theorem State.send_launches (s : State) (m : Msg) : (s.send m).launches = s.launches := rfl
@[simp] theorem State.send_nextLaunch (s : State) (m : Msg) : (s.send m).nextLaunch = s.nextLaunch := rfl
@[simp] theorem State.send_crews (s : State) (m : Msg) : (s.send m).crews = s.crews := rfl
@[simp] theorem State.send_nextCrew (s : State) (m : Msg) : (s.send m).nextCrew = s.nextCrew := rfl
@[simp] theorem State.send_groups (s : State) (m : Msg) : (s.send m).groups = s.groups := rfl
@[simp] theorem State.send_cores (s : State) (m : Msg) : (s.send m).cores = s.cores := rfl
@[simp] theorem State.send_clusters (s : State) (m : Msg) : (s.send m).clusters = s.clusters := rfl
@[simp] theorem State.send_queues (s : State) (m : Msg) : (s.send m).queues = s.queues := rfl
@[simp] theorem State.send_slots (s : State) (m : Msg) : (s.send m).slots = s.slots := rfl
@[simp] theorem State.send_nrwaits (s : State) (m : Msg) : (s.send m).nrwaits = s.nrwaits := rfl
@[simp] theorem State.send_streams (s : State) (m : Msg) : (s.send m).streams = s.streams := rfl
@[simp] theorem State.send_shoreQ (s : State) (m : Msg) : (s.send m).shoreQ = s.shoreQ := rfl
@[simp] theorem State.send_shoreHeld (s : State) (m : Msg) : (s.send m).shoreHeld = s.shoreHeld := rfl
@[simp] theorem State.send_sets (s : State) (m : Msg) : (s.send m).sets = s.sets := rfl
@[simp] theorem State.send_tlb (s : State) (m : Msg) : (s.send m).tlb = s.tlb := rfl
@[simp] theorem State.send_walks (s : State) (m : Msg) : (s.send m).walks = s.walks := rfl
@[simp] theorem State.send_pending (s : State) (m : Msg) : (s.send m).pending = s.pending := rfl
@[simp] theorem State.send_deadRings (s : State) (m : Msg) : (s.send m).deadRings = s.deadRings := rfl
@[simp] theorem State.send_txs (s : State) (m : Msg) : (s.send m).txs = s.txs := rfl
@[simp] theorem State.send_inbound (s : State) (m : Msg) : (s.send m).inbound = s.inbound := rfl
@[simp] theorem State.send_nextTx (s : State) (m : Msg) : (s.send m).nextTx = s.nextTx := rfl
@[simp] theorem State.send_sent (s : State) (m : Msg) :
    (s.send m).sent = m :: s.sent := rfl
@[simp] theorem State.send_bundles (s : State) (m : Msg) : (s.send m).bundles = s.bundles := rfl

/-! ### answer changes `sent` alone -/

@[simp] theorem State.answer_mem (s : State) (ok : Bool) (v : DWord) : (s.answer ok v).mem = s.mem := rfl
@[simp] theorem State.answer_badLines (s : State) (ok : Bool) (v : DWord) : (s.answer ok v).badLines = s.badLines := rfl
@[simp] theorem State.answer_deadLines (s : State) (ok : Bool) (v : DWord) : (s.answer ok v).deadLines = s.deadLines := rfl
@[simp] theorem State.answer_tick (s : State) (ok : Bool) (v : DWord) : (s.answer ok v).tick = s.tick := rfl
@[simp] theorem State.answer_cycle (s : State) (ok : Bool) (v : DWord) : (s.answer ok v).cycle = s.cycle := rfl
@[simp] theorem State.answer_agenda (s : State) (ok : Bool) (v : DWord) : (s.answer ok v).agenda = s.agenda := rfl
@[simp] theorem State.answer_cur (s : State) (ok : Bool) (v : DWord) : (s.answer ok v).cur = s.cur := rfl
@[simp] theorem State.answer_dies (s : State) (ok : Bool) (v : DWord) : (s.answer ok v).dies = s.dies := rfl
@[simp] theorem State.answer_image (s : State) (ok : Bool) (v : DWord) : (s.answer ok v).image = s.image := rfl
@[simp] theorem State.answer_minVersion (s : State) (ok : Bool) (v : DWord) : (s.answer ok v).minVersion = s.minVersion := rfl
@[simp] theorem State.answer_refTime (s : State) (ok : Bool) (v : DWord) : (s.answer ok v).refTime = s.refTime := rfl
@[simp] theorem State.answer_clkStep (s : State) (ok : Bool) (v : DWord) : (s.answer ok v).clkStep = s.clkStep := rfl
@[simp] theorem State.answer_frozen (s : State) (ok : Bool) (v : DWord) : (s.answer ok v).frozen = s.frozen := rfl
@[simp] theorem State.answer_frozenAt (s : State) (ok : Bool) (v : DWord) : (s.answer ok v).frozenAt = s.frozenAt := rfl
@[simp] theorem State.answer_watts (s : State) (ok : Bool) (v : DWord) : (s.answer ok v).watts = s.watts := rfl
@[simp] theorem State.answer_remap (s : State) (ok : Bool) (v : DWord) : (s.answer ok v).remap = s.remap := rfl
@[simp] theorem State.answer_remapCores (s : State) (ok : Bool) (v : DWord) : (s.answer ok v).remapCores = s.remapCores := rfl
@[simp] theorem State.answer_remapSlices (s : State) (ok : Bool) (v : DWord) : (s.answer ok v).remapSlices = s.remapSlices := rfl
@[simp] theorem State.answer_hidden (s : State) (ok : Bool) (v : DWord) : (s.answer ok v).hidden = s.hidden := rfl
@[simp] theorem State.answer_spareUsed (s : State) (ok : Bool) (v : DWord) : (s.answer ok v).spareUsed = s.spareUsed := rfl
@[simp] theorem State.answer_absent (s : State) (ok : Bool) (v : DWord) : (s.answer ok v).absent = s.absent := rfl
@[simp] theorem State.answer_evq (s : State) (ok : Bool) (v : DWord) : (s.answer ok v).evq = s.evq := rfl
@[simp] theorem State.answer_links (s : State) (ok : Bool) (v : DWord) : (s.answer ok v).links = s.links := rfl
@[simp] theorem State.answer_ports (s : State) (ok : Bool) (v : DWord) : (s.answer ok v).ports = s.ports := rfl
@[simp] theorem State.answer_srams (s : State) (ok : Bool) (v : DWord) : (s.answer ok v).srams = s.srams := rfl
@[simp] theorem State.answer_routersOff (s : State) (ok : Bool) (v : DWord) : (s.answer ok v).routersOff = s.routersOff := rfl
@[simp] theorem State.answer_routersWoke (s : State) (ok : Bool) (v : DWord) : (s.answer ok v).routersWoke = s.routersWoke := rfl
@[simp] theorem State.answer_rowThresh (s : State) (ok : Bool) (v : DWord) : (s.answer ok v).rowThresh = s.rowThresh := rfl
@[simp] theorem State.answer_rowDelay (s : State) (ok : Bool) (v : DWord) : (s.answer ok v).rowDelay = s.rowDelay := rfl
@[simp] theorem State.answer_rows (s : State) (ok : Bool) (v : DWord) : (s.answer ok v).rows = s.rows := rfl
@[simp] theorem State.answer_spent (s : State) (ok : Bool) (v : DWord) : (s.answer ok v).spent = s.spent := rfl
@[simp] theorem State.answer_sliceWait (s : State) (ok : Bool) (v : DWord) : (s.answer ok v).sliceWait = s.sliceWait := rfl
@[simp] theorem State.answer_fwRegions (s : State) (ok : Bool) (v : DWord) : (s.answer ok v).fwRegions = s.fwRegions := rfl
@[simp] theorem State.answer_vfs (s : State) (ok : Bool) (v : DWord) : (s.answer ok v).vfs = s.vfs := rfl
@[simp] theorem State.answer_contexts (s : State) (ok : Bool) (v : DWord) : (s.answer ok v).contexts = s.contexts := rfl
@[simp] theorem State.answer_launches (s : State) (ok : Bool) (v : DWord) : (s.answer ok v).launches = s.launches := rfl
@[simp] theorem State.answer_nextLaunch (s : State) (ok : Bool) (v : DWord) : (s.answer ok v).nextLaunch = s.nextLaunch := rfl
@[simp] theorem State.answer_crews (s : State) (ok : Bool) (v : DWord) : (s.answer ok v).crews = s.crews := rfl
@[simp] theorem State.answer_nextCrew (s : State) (ok : Bool) (v : DWord) : (s.answer ok v).nextCrew = s.nextCrew := rfl
@[simp] theorem State.answer_groups (s : State) (ok : Bool) (v : DWord) : (s.answer ok v).groups = s.groups := rfl
@[simp] theorem State.answer_cores (s : State) (ok : Bool) (v : DWord) : (s.answer ok v).cores = s.cores := rfl
@[simp] theorem State.answer_clusters (s : State) (ok : Bool) (v : DWord) : (s.answer ok v).clusters = s.clusters := rfl
@[simp] theorem State.answer_queues (s : State) (ok : Bool) (v : DWord) : (s.answer ok v).queues = s.queues := rfl
@[simp] theorem State.answer_slots (s : State) (ok : Bool) (v : DWord) : (s.answer ok v).slots = s.slots := rfl
@[simp] theorem State.answer_nrwaits (s : State) (ok : Bool) (v : DWord) : (s.answer ok v).nrwaits = s.nrwaits := rfl
@[simp] theorem State.answer_streams (s : State) (ok : Bool) (v : DWord) : (s.answer ok v).streams = s.streams := rfl
@[simp] theorem State.answer_shoreQ (s : State) (ok : Bool) (v : DWord) : (s.answer ok v).shoreQ = s.shoreQ := rfl
@[simp] theorem State.answer_shoreHeld (s : State) (ok : Bool) (v : DWord) : (s.answer ok v).shoreHeld = s.shoreHeld := rfl
@[simp] theorem State.answer_sets (s : State) (ok : Bool) (v : DWord) : (s.answer ok v).sets = s.sets := rfl
@[simp] theorem State.answer_tlb (s : State) (ok : Bool) (v : DWord) : (s.answer ok v).tlb = s.tlb := rfl
@[simp] theorem State.answer_walks (s : State) (ok : Bool) (v : DWord) : (s.answer ok v).walks = s.walks := rfl
@[simp] theorem State.answer_pending (s : State) (ok : Bool) (v : DWord) : (s.answer ok v).pending = s.pending := rfl
@[simp] theorem State.answer_deadRings (s : State) (ok : Bool) (v : DWord) : (s.answer ok v).deadRings = s.deadRings := rfl
@[simp] theorem State.answer_txs (s : State) (ok : Bool) (v : DWord) : (s.answer ok v).txs = s.txs := rfl
@[simp] theorem State.answer_inbound (s : State) (ok : Bool) (v : DWord) : (s.answer ok v).inbound = s.inbound := rfl
@[simp] theorem State.answer_nextTx (s : State) (ok : Bool) (v : DWord) : (s.answer ok v).nextTx = s.nextTx := rfl
@[simp] theorem State.answer_sent (s : State) (ok : Bool) (v : DWord) :
    (s.answer ok v).sent = .answer ok v :: s.sent := rfl
@[simp] theorem State.answer_bundles (s : State) (ok : Bool) (v : DWord) : (s.answer ok v).bundles = s.bundles := rfl

end Sys2Proof.Machine
end

