-- ==== Sys2Proof/Laws/Ops.lean ====
section
/-! SUPPORT. Sys2Proof/Laws/Ops.lean: what each shared operation of Machine/Ops.lean can do, once: register reads after writes,
the acting entry, the checks of a word, and the end of a word. -/
namespace Sys2Proof.Machine

/-! ### Registers -/

theorem group_vAt_setV (g : Group) (d r : Nat) (m : Mask) (f : Fin 128 → Word) (l : Fin 128) (hd : d < 128) :
    (g.setV d m f).vAt r l = if r = d ∧ m.getLsbD l.val = true then f l else g.vAt r l := by
  unfold Group.vAt Group.setV
  by_cases h : r = d
  · subst h
    simp only [vecGet_vecMod_same _ _ _ _ hd, setLanes_get, true_and]
  · simp only [vecGet_vecMod_other _ _ _ _ _ h, h, false_and, if_false]

theorem group_gAt_setG (g : Group) (d r : Nat) (x : DWord) (hd : d < 64) :
    (g.setG d x).gAt r = if r = d then x else g.gAt r := by
  unfold Group.gAt Group.setG
  by_cases h : r = d
  · subst h
    simp only [vecGet_vecMod_same _ _ _ _ hd, if_true]
  · simp only [vecGet_vecMod_other _ _ _ _ _ h, h, if_false]

theorem group_pAt_setP (g : Group) (d r : Nat) (m : Mask) (f : Fin 128 → Bool) (l : Fin 128) (hd : d < 48) :
    ((g.setP d m f).pAt r).getLsbD l.val =
      if r = d ∧ d ≠ 0 ∧ m.getLsbD l.val = true then f l else (g.pAt r).getLsbD l.val := by
  unfold Group.setP
  split
  · rename_i h0
    simp [h0]
  · rename_i h0
    unfold Group.pAt
    by_cases hr : r = d
    · subst hr
      simp only [h0, if_false, vecGet_vecMod_same _ _ _ _ hd, maskOf_getLsbD, l.isLt, decide_true, Bool.true_and, dite_true,
        true_and, ne_eq, not_false_eq_true]
    · by_cases hr0 : r = 0
      · simp [hr0, Ne.symm h0]
      · simp only [hr0, if_false, vecGet_vecMod_other _ _ _ _ _ hr, hr, false_and]

@[simp] theorem group_pAt_zero (g : Group) : g.pAt 0 = allLanes := rfl
@[simp] theorem group_qAt_zero (g : Group) : g.qAt 0 = true := rfl
@[simp] theorem group_setP_zero (g : Group) (m : Mask) (f : Fin 128 → Bool) : g.setP 0 m f = g := rfl
@[simp] theorem group_setQ_zero (g : Group) (b : Bool) : g.setQ 0 b = g := rfl

theorem group_qAt_setQ (g : Group) (d r : Nat) (b : Bool) (hd : d < 16) (hr : r < 16) :
    (g.setQ d b).qAt r = if r = d ∧ d ≠ 0 then b else g.qAt r := by
  unfold Group.setQ
  split
  · rename_i h0; simp [h0]
  · rename_i h0
    unfold Group.qAt
    have hp : ∀ i, i < 16 → (BitVec.ofNat 16 (2 ^ d)).getLsbD i = decide (d = i) := by
      intro i hi
      rw [BitVec.getLsbD_ofNat, Nat.testBit_two_pow]
      simp only [hi, decide_true, Bool.true_and]
    cases b
    · simp only [Bool.false_eq_true, if_false, BitVec.getLsbD_and, BitVec.getLsbD_not, hp r hr, hr, decide_true, Bool.true_and]
      by_cases hrd : r = d
      · subst hrd; simp only [h0, decide_true, decide_false, Bool.not_true, Bool.and_false, Bool.or_false, ne_eq,
          not_false_eq_true, and_self, if_true]
      · simp only [Ne.symm hrd, hrd, decide_false, Bool.not_false, Bool.and_true, false_and, if_false]
    · simp only [if_true, BitVec.getLsbD_or, hp r hr]
      by_cases hrd : r = d
      · subst hrd; simp only [h0, decide_true, Bool.or_true, ne_eq, not_false_eq_true, and_self, if_true]
      · simp only [Ne.symm hrd, hrd, decide_false, Bool.or_false, false_and, if_false]

/-! ### Changing one group -/

@[simp] theorem keyMap_put_put {α : Type} (m : KeyMap α) (k : Nat) (x y : α) :
    KeyMap.put (KeyMap.put m k x) k y = KeyMap.put m k y := by
  induction m with
  | nil => simp [KeyMap.put]
  | cons c r ih =>
    obtain ⟨j, z⟩ := c
    by_cases h : k < j
    · simp [KeyMap.put, h]
    · by_cases h2 : k = j
      · subst h2; simp [KeyMap.put]
      · simp [KeyMap.put, h, h2, ih]

/-- Changing a group that was just replaced is one replacement. -/
theorem updGroup_putGroup (s : State) (gid : Nat) (g : Group) (f : Group → Group) :
    (s.putGroup gid g).updGroup gid f = s.putGroup gid (f g) := by
  simp [State.updGroup, State.putGroup, KeyMap.upd, keyMap_find_put_same]

/-- Changing an existing group is replacing it. -/
theorem updGroup_eq_putGroup (s : State) (gid : Nat) (g : Group) (f : Group → Group) (h : KeyMap.find s.groups gid = some g) :
    s.updGroup gid f = s.putGroup gid (f g) := by
  simp [State.updGroup, State.putGroup, KeyMap.upd, h]

/-- The frontier after an instruction of entry ei is done (R267). -/
def movedOn (es : List Entry) (ei : Nat) : List Entry := mergeAll (setAt es ei Entry.advance)

theorem finish_putGroup (s : State) (gid ei : Nat) (g : Group) :
    (s.putGroup gid g).finish gid ei = s.putGroup gid { g with entries := movedOn g.entries ei } :=
  updGroup_putGroup s gid g _

/-! ### The acting entry and the checks of a word -/

theorem acting_of (s : State) (gid ei : Nat) (g : Group) (e : Entry) (hc : s.cur = .group gid ei)
    (hg : KeyMap.find s.groups gid = some g) (he : g.entries[ei]? = some e) : s.acting = some (gid, g, ei, e) := by
  simp [State.acting, hc, hg, he]

/-- Everything a word can do before its effect: trap, wait, or go. -/
theorem issue_cases (n : Need) (s t : State) (f : Nat → Group → Nat → Entry → State) (h : issue n s f = .next t) :
    ∃ gid g ei e, s.acting = some (gid, g, ei, e) ∧
      ((∃ ti, n.check g e.mask = .trap ti ∧ t = s.takeTrap gid ei ti) ∨
        (n.check g e.mask = .wait ∧ t = s.block gid ei) ∨
        (n.check g e.mask = .go ∧ t = f gid g ei e)) := by
  unfold issue at h
  split at h
  · cases h
  · rename_i gid g ei e ha
    refine ⟨gid, g, ei, e, ha, ?_⟩
    split at h
    · rename_i ti hv; exact .inl ⟨ti, hv, by injection h with h; exact h.symm⟩
    · rename_i hv; exact .inr (.inl ⟨hv, by injection h with h; exact h.symm⟩)
    · rename_i hv; exact .inr (.inr ⟨hv, by injection h with h; exact h.symm⟩)

/-- A word whose checks pass takes its effect. -/
theorem issue_go (n : Need) (s : State) (f : Nat → Group → Nat → Entry → State) (gid ei : Nat) (g : Group) (e : Entry)
    (ha : s.acting = some (gid, g, ei, e)) (hv : n.check g e.mask = .go) : issue n s f = .next (f gid g ei e) := by
  simp [issue, ha, hv]

theorem issueRegs_go (n : Need) (s : State) (f : Group → Entry → Group) (gid ei : Nat) (g : Group) (e : Entry)
    (ha : s.acting = some (gid, g, ei, e)) (hv : n.check g e.mask = .go) :
    issueRegs n s f = .next (s.putGroup gid { f g e with entries := movedOn (f g e).entries ei }) := by
  rw [issueRegs, issue_go n s _ gid ei g e ha hv, finish_putGroup]

/-- A lane form in a group acts as a word that changes its registers. -/
theorem laneForm_go (n : Need) (s : State) (f : LaneIn → LaneOut) (gid ei : Nat) (g : Group) (e : Entry)
    (hc : s.cur = .group gid ei) (ha : s.acting = some (gid, g, ei, e)) (hv : n.check g e.mask = .go) :
    laneForm n s f = .next (s.putGroup gid
      { g.applyLanes n e.mask f with entries := movedOn (g.applyLanes n e.mask f).entries ei }) := by
  rw [laneForm, hc]
  exact issueRegs_go n s _ gid ei g e ha hv

/-- What the checks of a word ask for when they pass. -/
theorem check_go (n : Need) (g : Group) (m : Mask) (h1 : n.illegal = false) (h2 : n.outOfRange g = false)
    (h3 : n.roles.isEmpty = true ∨ n.roles.contains g.role = true) (h4 : n.sourceEmpty g m = false)
    (h5 : n.destEmpty g m = false) : n.check g m = .go := by
  unfold Need.check
  have h6 : (!n.roles.isEmpty && !n.roles.contains g.role) = false := by
    rcases h3 with h3 | h3 <;> simp only [h3, Bool.not_true, Bool.and_false, Bool.false_and]
  simp only [h1, h2, h4, h5, h6, Bool.false_eq_true, if_false]

/-! ### What lane forms leave alone -/

@[simp] theorem setV_entries (g : Group) (r : Nat) (m : Mask) (f : Fin 128 → Word) : (g.setV r m f).entries = g.entries := rfl
@[simp] theorem setP_entries (g : Group) (r : Nat) (m : Mask) (f : Fin 128 → Bool) : (g.setP r m f).entries = g.entries := by
  unfold Group.setP; split <;> rfl
@[simp] theorem setG_entries (g : Group) (r : Nat) (x : DWord) : (g.setG r x).entries = g.entries := rfl
@[simp] theorem setQ_entries (g : Group) (r : Nat) (b : Bool) : (g.setQ r b).entries = g.entries := by
  unfold Group.setQ; split <;> rfl

end Sys2Proof.Machine
end

