-- ==== Sys2Proof/Laws/Lanes.lean ====
section
/-! SUPPORT. Sys2Proof/Laws/Lanes.lean: what a lane form does to its group, once (R97): the destination in the bundle's lanes,
the flags the lanes raise, and nothing else. -/
namespace Sys2Proof.Machine

@[simp] theorem setLanes_self (old : Lanes Word) (m : Mask) : setLanes old m (fun l => old[l]) = old := by
  apply Vector.ext
  intro i hi
  have := setLanes_get old m (fun l => old[l]) ⟨i, hi⟩
  simpa using this

/-- Flags gathered over a list of lanes. -/
theorem foldl_or_getLsbD {w : Nat} {α : Type} (xs : List α) (f : α → BitVec w) (a : BitVec w) (k : Nat) :
    (xs.foldl (fun acc l => acc ||| f l) a).getLsbD k = true ↔
      a.getLsbD k = true ∨ ∃ l ∈ xs, (f l).getLsbD k = true := by
  induction xs generalizing a with
  | nil => simp
  | cons x r ih =>
    rw [List.foldl_cons, ih, BitVec.getLsbD_or]
    simp only [Bool.or_eq_true, List.mem_cons, exists_eq_or_imp, or_assoc]

theorem mem_lanesIn (m : Mask) (l : Fin 128) : l ∈ lanesIn m ↔ m.getLsbD l.val = true := by
  simp [lanesIn]

/-- The flags a lane form leaves. -/
theorem applyLanes_arith (g : Group) (n : Need) (m : Mask) (f : LaneIn → LaneOut) (k : Nat) :
    (g.applyLanes n m f).arith.getLsbD k = true ↔
      g.arith.getLsbD k = true ∨ ∃ l : Fin 128, m.getLsbD l.val = true ∧ (f (g.laneIn l)).fl.getLsbD k = true := by
  have h : (g.applyLanes n m f).arith = (lanesIn m).foldl (fun a l => a ||| (f (g.laneIn l)).fl) g.arith := rfl
  rw [h, foldl_or_getLsbD]
  simp only [mem_lanesIn]

theorem vAt_congr {g h : Group} (e : g.v = h.v) (r : Nat) (l : Fin 128) : g.vAt r l = h.vAt r l := by
  simp only [Group.vAt, e]

theorem pAt_congr {g h : Group} (e : g.p = h.p) (r : Nat) : g.pAt r = h.pAt r := by
  simp only [Group.pAt, e]

/-- V[r] of a group with another V file. -/
theorem vAt_with (g h : Group) (x : Vector (Lanes Word) 128) (e : x = h.v) (r : Nat) (l : Fin 128) :
    Group.vAt { g with v := x } r l = h.vAt r l := by
  simp only [Group.vAt, e]

/-- P[r] of a group with another P file. -/
theorem pAt_with (g h : Group) (x : Vector Mask 48) (e : x = h.p) (r : Nat) :
    Group.pAt { g with p := x } r = h.pAt r := by
  simp only [Group.pAt, e]

/-- The V registers a lane form writes, one after another. -/
def writtenV (g : Group) (n : Need) (m : Mask) (f : LaneIn → LaneOut) : Group :=
  n.vw.foldl (fun acc r => acc.setV r m fun l => (lastFor (f (g.laneIn l)).v r).getD (g.vAt r l)) g

theorem applyLanes_p (g : Group) (n : Need) (m : Mask) (f : LaneIn → LaneOut) :
    (g.applyLanes n m f).p =
      (n.pw.foldl (fun acc r => acc.setP r m fun l => (lastFor (f (g.laneIn l)).p r).getD false) (writtenV g n m f)).p := by
  simp only [Group.applyLanes, writtenV]

theorem setP_foldl_v (rs : List Nat) (m : Mask) (f : Nat → Fin 128 → Bool) (g : Group) :
    (rs.foldl (fun acc r => acc.setP r m (f r)) g).v = g.v := by
  induction rs generalizing g with
  | nil => rfl
  | cons r rs ih =>
    rw [List.foldl_cons, ih]
    unfold Group.setP
    split <;> rfl

theorem applyLanes_v (g : Group) (n : Need) (m : Mask) (f : LaneIn → LaneOut) :
    (g.applyLanes n m f).v = (writtenV g n m f).v := by
  simp only [Group.applyLanes, writtenV]
  exact setP_foldl_v n.pw m (fun r l => (lastFor (f (g.laneIn l)).p r).getD false) _

/-- A lane form that draws no random word changes V, P and the flags of its group, and nothing else. -/
theorem applyLanes_eq (g : Group) (n : Need) (m : Mask) (f : LaneIn → LaneOut) (hr : ∀ l, (f (g.laneIn l)).rng = none) :
    g.applyLanes n m f = { g with v := (g.applyLanes n m f).v, p := (g.applyLanes n m f).p
                                  arith := (g.applyLanes n m f).arith } := by
  have hv : ∀ (rs : List Nat) (w : Nat → Fin 128 → Word) (x : Group),
      rs.foldl (fun acc r => acc.setV r m (w r)) x =
        { x with v := (rs.foldl (fun acc r => acc.setV r m (w r)) x).v } := by
    intro rs w
    induction rs with
    | nil => intro x; rfl
    | cons r rs ih => intro x; rw [List.foldl_cons, ih]; rfl
  have hp : ∀ (rs : List Nat) (w : Nat → Fin 128 → Bool) (x : Group),
      rs.foldl (fun acc r => acc.setP r m (w r)) x =
        { x with p := (rs.foldl (fun acc r => acc.setP r m (w r)) x).p } := by
    intro rs w
    induction rs with
    | nil => intro x; rfl
    | cons r rs ih =>
      intro x
      rw [List.foldl_cons, ih]
      unfold Group.setP
      split <;> rfl
  have h1 := hv n.vw (fun r l => (lastFor (f (g.laneIn l)).v r).getD (g.vAt r l)) g
  have h2 := hp n.pw (fun r l => (lastFor (f (g.laneIn l)).p r).getD false)
    (n.vw.foldl (fun acc r => acc.setV r m fun l => (lastFor (f (g.laneIn l)).v r).getD (g.vAt r l)) g)
  unfold Group.applyLanes
  simp only [hr, Option.getD_none, setLanes_self]
  rw [h2, h1]

/-- A lane form whose one destination is V[d] and that draws no random word: V[d] in the bundle's lanes and the flags, and
nothing else. -/
theorem applyLanes_v1 (g : Group) (n : Need) (m : Mask) (f : LaneIn → LaneOut) (d : Nat) (val : Fin 128 → Word)
    (hvw : n.vw = [d]) (hpw : n.pw = []) (hd : d < 128) (hout : ∀ l, (f (g.laneIn l)).v = [(d, val l)])
    (hr : ∀ l, (f (g.laneIn l)).rng = none) :
    ∃ v a, g.applyLanes n m f = { g with v := v, arith := a } ∧
      (∀ r l, Group.vAt { g with v := v } r l = if r = d ∧ m.getLsbD l.val = true then val l else g.vAt r l) ∧
      ∀ k, a.getLsbD k = true ↔
        g.arith.getLsbD k = true ∨ ∃ l : Fin 128, m.getLsbD l.val = true ∧ (f (g.laneIn l)).fl.getLsbD k = true := by
  refine ⟨(g.applyLanes n m f).v, (g.applyLanes n m f).arith, ?_, ?_, applyLanes_arith g n m f⟩
  · have hp : (g.applyLanes n m f).p = g.p := by
      rw [applyLanes_p, writtenV, hvw, hpw]; rfl
    have h := applyLanes_eq g n m f hr
    rw [hp] at h
    exact h
  · intro r l
    have h : (g.applyLanes n m f).v = (g.setV d m fun l => (lastFor (f (g.laneIn l)).v d).getD (g.vAt d l)).v := by
      rw [applyLanes_v, writtenV, hvw]
      rfl
    rw [vAt_with g _ _ h, group_vAt_setV _ _ _ _ _ _ hd]
    simp [hout, lastFor]

/-- A lane form whose one destination is P[d]: P[d] in the bundle's lanes and the flags, and nothing else. -/
theorem applyLanes_p1 (g : Group) (n : Need) (m : Mask) (f : LaneIn → LaneOut) (d : Nat) (val : Fin 128 → Bool)
    (hvw : n.vw = []) (hpw : n.pw = [d]) (hd : d < 48) (hout : ∀ l, (f (g.laneIn l)).p = [(d, val l)])
    (hr : ∀ l, (f (g.laneIn l)).rng = none) :
    ∃ p a, g.applyLanes n m f = { g with p := p, arith := a } ∧
      (∀ r (l : Fin 128), (Group.pAt { g with p := p } r).getLsbD l.val =
        if r = d ∧ d ≠ 0 ∧ m.getLsbD l.val = true then val l else (g.pAt r).getLsbD l.val) ∧
      ∀ k, a.getLsbD k = true ↔
        g.arith.getLsbD k = true ∨ ∃ l : Fin 128, m.getLsbD l.val = true ∧ (f (g.laneIn l)).fl.getLsbD k = true := by
  refine ⟨(g.applyLanes n m f).p, (g.applyLanes n m f).arith, ?_, ?_, applyLanes_arith g n m f⟩
  · have hv : (g.applyLanes n m f).v = g.v := by
      rw [applyLanes_v, writtenV, hvw]; rfl
    have h := applyLanes_eq g n m f hr
    rw [hv] at h
    exact h
  · intro r l
    have h : (g.applyLanes n m f).p = (g.setP d m fun l => (lastFor (f (g.laneIn l)).p d).getD false).p := by
      rw [applyLanes_p, writtenV, hvw, hpw]
      rfl
    rw [pAt_with g _ _ h, group_pAt_setP _ _ _ _ _ _ hd]
    simp [hout, lastFor]

end Sys2Proof.Machine
end

