-- ==== Sys2Proof/Laws/Meter.lean ====
section
/-! SUPPORT. Sys2Proof/Laws/Meter.lean: what posting an event record and metering an access can do (R341, R344, R426): of the
state only the meters and the hypervisor's event queue change, and of memory only the bytes of that queue. -/
namespace Sys2Proof.Machine

/-- Position and length of the event queue agree. -/
def QueueOk (s : State) : Prop := s.evq.len = 0 ∨ s.evq.pos < s.evq.len

/-- From `s` to `t` the event queue keeps its place, and no byte outside it changes. -/
structure QueueOnly (s t : State) : Prop where
  base : t.evq.base = s.evq.base
  len : t.evq.len = s.evq.len
  ok : QueueOk t
  read : ∀ a, a < s.evq.base.toNat ∨ s.evq.base.toNat + 64 * s.evq.len ≤ a → t.mem.read a = s.mem.read a

theorem queueOnly_of_same (s t : State) (h : QueueOk s) (he : t.evq = s.evq) (hm : t.mem = s.mem) : QueueOnly s t :=
  ⟨by rw [he], by rw [he], by unfold QueueOk; rw [he]; exact h, fun _ _ => by rw [hm]⟩

theorem queueOnly_trans {s t u : State} (a : QueueOnly s t) (b : QueueOnly t u) : QueueOnly s u :=
  ⟨b.base.trans a.base, b.len.trans a.len, b.ok, fun x hx => by rw [b.read x (by rw [a.base, a.len]; exact hx), a.read x hx]⟩

theorem leBytes_length (n x : Nat) : (leBytes n x).length = n := by
  induction n generalizing x with
  | zero => rfl
  | succ n ih => simp [leBytes, ih]

theorem errRec_bytes_length (r : ErrRec) (d : Nat) : (r.bytes d).length = 64 := by
  simp [ErrRec.bytes, leBytes_length]

/-- Writing held records changes memory and the event queue only. -/
theorem flushErr_frame (n : Nat) (s : State) :
    State.flushErr n s = { s with mem := (State.flushErr n s).mem, evq := (State.flushErr n s).evq } := by
  induction n generalizing s with
  | zero => rfl
  | succ n ih =>
    unfold State.flushErr
    split
    · rfl
    · dsimp only
      split
      · rfl
      · exact ih _

/-- Writing a record at the queue's position changes no byte outside the queue, and moves on inside it. -/
theorem queueOnly_write (s : State) (bs : List Byte) (rest : List ErrRec) (hl : s.evq.len ≠ 0) (hp : s.evq.pos < s.evq.len)
    (hb : bs.length = 64) :
    QueueOnly s { s with mem := s.mem.writeBytes (s.evq.base.toNat + 64 * s.evq.pos) bs
                         evq := { s.evq with pos := (s.evq.pos + 1) % s.evq.len, held := rest, drops := 0 } } := by
  refine ⟨rfl, rfl, Or.inr (Nat.mod_lt _ (Nat.pos_of_ne_zero hl)), fun a ha => memory_read_writeBytes_other _ _ _ _ ?_⟩
  rw [hb]
  omega

theorem flushErr_queueOnly (n : Nat) (s : State) (h : QueueOk s) : QueueOnly s (State.flushErr n s) := by
  induction n generalizing s with
  | zero => exact queueOnly_of_same s s h rfl rfl
  | succ n ih =>
    unfold State.flushErr
    split
    · exact queueOnly_of_same s s h rfl rfl
    · rename_i r rest hr
      dsimp only
      split
      · exact queueOnly_of_same s s h rfl rfl
      · rename_i hf
        have hl : s.evq.len ≠ 0 := by
          intro h0
          simp [h0] at hf
        have w := queueOnly_write s (r.bytes s.evq.drops) rest hl (h.resolve_left hl) (errRec_bytes_length _ _)
        exact queueOnly_trans w (ih _ w.ok)

/-- Posting a record changes memory and the event queue only. -/
theorem postErr_frame (s : State) (r : ErrRec) :
    s.postErr r = { s with mem := (s.postErr r).mem, evq := (s.postErr r).evq } := by
  unfold State.postErr
  dsimp only
  rw [flushErr_frame]
  split <;> rfl

/-- A state that differs from `s` elsewhere than in memory and the event queue does as well. -/
theorem queueOnly_start {s s' t : State} (he : s'.evq = s.evq) (hm : s'.mem = s.mem) (h : QueueOnly s' t) : QueueOnly s t :=
  ⟨by rw [h.base, he], by rw [h.len, he], h.ok, fun a ha => by rw [h.read a (by rw [he]; exact ha), hm]⟩

/-- Holding another record leaves the queue's place and its memory. -/
theorem queueOnly_held (s : State) (rs : List ErrRec) (d : Nat) (h : QueueOk s) :
    QueueOnly s { s with evq := { s.evq with held := rs, drops := d } } := ⟨rfl, rfl, h, fun _ _ => rfl⟩

theorem postErr_queueOnly (s : State) (r : ErrRec) (h : QueueOk s) : QueueOnly s (s.postErr r) := by
  unfold State.postErr
  dsimp only
  have q1 := queueOnly_held s (s.evq.held ++ [{ r with time := s.refTime }]) s.evq.drops h
  have q2 := flushErr_queueOnly 1025 _ q1.ok
  have q := queueOnly_trans q1 q2
  clear q1 q2
  split
  · exact q
  · exact queueOnly_trans q (queueOnly_held _ _ _ q.ok)

/-! ### The meters -/

/-- Nothing but the meters, memory and the event queue differs. -/
def MetersOnly (s t : State) : Prop :=
  t = { s with mem := t.mem, evq := t.evq, rows := t.rows, spent := t.spent, sliceWait := t.sliceWait }

theorem metersOnly_trans {s t u : State} (a : MetersOnly s t) (b : MetersOnly t u) : MetersOnly s u := by
  unfold MetersOnly at *
  rw [b, a]

theorem charge_meters (s : State) (r : SliceReq) : MetersOnly s (s.charge r) := by
  unfold MetersOnly State.charge
  dsimp only
  split <;> rfl

theorem charge_queueOnly (s : State) (r : SliceReq) (h : QueueOk s) : QueueOnly s (s.charge r) := by
  unfold State.charge
  dsimp only
  split <;> exact queueOnly_of_same _ _ h rfl rfl

theorem countRow_meters (s : State) (slice vf row n : Nat) : MetersOnly s (s.countRow slice vf row n) := by
  unfold MetersOnly State.countRow
  dsimp only
  split <;> split <;> first | rfl | (rw [postErr_frame])

theorem countRow_queueOnly (s : State) (slice vf row n : Nat) (h : QueueOk s) : QueueOnly s (s.countRow slice vf row n) := by
  have post (s' : State) (c : Bool) (r : ErrRec) (he : s'.evq = s.evq) (hm : s'.mem = s.mem) :
      QueueOnly s (if c = true then s'.postErr r else s') := by
    split
    · exact queueOnly_start he hm (postErr_queueOnly _ _ (by unfold QueueOk; rw [he]; exact h))
    · exact queueOnly_of_same _ _ h he hm
  unfold State.countRow
  exact post _ _ _ (by split <;> rfl) (by split <;> rfl)

/-- What metering an access can do: its meters, and the event queue. -/
structure Metered (s t : State) : Prop where
  meters : MetersOnly s t
  queue : QueueOk s → QueueOnly s t

theorem metered_refl (s : State) : Metered s s := ⟨rfl, fun h => queueOnly_of_same s s h rfl rfl⟩

theorem metered_trans {s t u : State} (a : Metered s t) (b : Metered t u) : Metered s u :=
  ⟨metersOnly_trans a.meters b.meters, fun h => queueOnly_trans (a.queue h) (b.queue (a.queue h).ok)⟩

theorem charge_metered (s : State) (r : SliceReq) : Metered s (s.charge r) := ⟨charge_meters s r, charge_queueOnly s r⟩

theorem countRow_metered (s : State) (slice vf row n : Nat) : Metered s (s.countRow slice vf row n) :=
  ⟨countRow_meters s slice vf row n, countRow_queueOnly s slice vf row n⟩

theorem meterLine_metered (s : State) (vf : Nat) (who : Option (Nat × Nat)) (span : Nat × Nat) :
    Metered s (s.meterLine vf who span) := by
  unfold State.meterLine
  dsimp only
  split
  · exact metered_refl s
  · split <;> split
    · exact metered_trans (metered_trans (charge_metered _ _) (charge_metered _ _)) (countRow_metered _ _ _ _ _)
    · exact metered_trans (charge_metered _ _) (charge_metered _ _)
    · exact metered_trans (charge_metered _ _) (countRow_metered _ _ _ _ _)
    · exact charge_metered _ _

/-- An access that is metered changes no group, register or scratchpad, and no byte of memory outside the event queue. -/
theorem meter_metered (s : State) (vf : Nat) (who : Option (Nat × Nat)) (touched : List (Nat × Nat)) :
    Metered s (s.meter vf who touched) := by
  unfold State.meter
  generalize lineSpans touched = l
  induction l generalizing s with
  | nil => exact metered_refl s
  | cons x l ih => exact metered_trans (meterLine_metered s vf who x) (ih _)

theorem metered_groups {s t : State} (h : Metered s t) : t.groups = s.groups := by
  have e := h.meters
  unfold MetersOnly at e
  rw [e]

theorem metered_cores {s t : State} (h : Metered s t) : t.cores = s.cores := by
  have e := h.meters
  unfold MetersOnly at e
  rw [e]

end Sys2Proof.Machine
end

