-- ==== Sys2Proof/Laws/PerInstr.lean ====
section
/-! SUPPORT. Sys2Proof/Laws/PerInstr.lean: for every form, what its encoding gives. WordFits: the number of its word is below
2³², so that no field runs into another word (R37). -/
namespace Sys2Proof.Laws.WordFits

/-- The number of the form's word is a 32-bit number. -/
def Statement (i : Instr) : Prop := encodeNat i < 2 ^ 32

/-- A bit as a number. -/
theorem bit_le (b : Bool) : Sys2Proof.Bool.bit b ≤ 1 := by cases b <;> decide

theorem iadd (d : BitVec 7) (a : BitVec 7) (b : BitVec 7) (w : Bool) : Statement (.iadd d a b w) := by
  have := d.isLt; have := a.isLt; have := b.isLt; have := bit_le w; show 33554432 + d.toNat * 262144 + a.toNat * 2048 + b.toNat * 16 + Sys2Proof.Bool.bit w < 2 ^ 32; omega
theorem isub (d : BitVec 7) (a : BitVec 7) (b : BitVec 7) (w : Bool) : Statement (.isub d a b w) := by
  have := d.isLt; have := a.isLt; have := b.isLt; have := bit_le w; show 33554434 + d.toNat * 262144 + a.toNat * 2048 + b.toNat * 16 + Sys2Proof.Bool.bit w < 2 ^ 32; omega
theorem iaddsI32 (d : BitVec 7) (a : BitVec 7) (b : BitVec 7) (w : Bool) : Statement (.iaddsI32 d a b w) := by
  have := d.isLt; have := a.isLt; have := b.isLt; have := bit_le w; show 33554436 + d.toNat * 262144 + a.toNat * 2048 + b.toNat * 16 + Sys2Proof.Bool.bit w < 2 ^ 32; omega
theorem isubsI32 (d : BitVec 7) (a : BitVec 7) (b : BitVec 7) (w : Bool) : Statement (.isubsI32 d a b w) := by
  have := d.isLt; have := a.isLt; have := b.isLt; have := bit_le w; show 33554438 + d.toNat * 262144 + a.toNat * 2048 + b.toNat * 16 + Sys2Proof.Bool.bit w < 2 ^ 32; omega
theorem iaddsN32 (d : BitVec 7) (a : BitVec 7) (b : BitVec 7) (w : Bool) : Statement (.iaddsN32 d a b w) := by
  have := d.isLt; have := a.isLt; have := b.isLt; have := bit_le w; show 33554440 + d.toNat * 262144 + a.toNat * 2048 + b.toNat * 16 + Sys2Proof.Bool.bit w < 2 ^ 32; omega
theorem isubsN32 (d : BitVec 7) (a : BitVec 7) (b : BitVec 7) (w : Bool) : Statement (.isubsN32 d a b w) := by
  have := d.isLt; have := a.isLt; have := b.isLt; have := bit_le w; show 33554442 + d.toNat * 262144 + a.toNat * 2048 + b.toNat * 16 + Sys2Proof.Bool.bit w < 2 ^ 32; omega
theorem iaddi (d : BitVec 7) (a : BitVec 7) (i : BitVec 10) (w : Bool) : Statement (.iaddi d a i w) := by
  have := d.isLt; have := a.isLt; have := i.isLt; have := bit_le w; show 67108864 + d.toNat * 262144 + a.toNat * 2048 + i.toNat * 2 + Sys2Proof.Bool.bit w < 2 ^ 32; omega
theorem imul (d : BitVec 7) (a : BitVec 7) (b : BitVec 7) (w : Bool) : Statement (.imul d a b w) := by
  have := d.isLt; have := a.isLt; have := b.isLt; have := bit_le w; show 100663296 + d.toNat * 262144 + a.toNat * 2048 + b.toNat * 16 + Sys2Proof.Bool.bit w < 2 ^ 32; omega
theorem imulhI32 (d : BitVec 7) (a : BitVec 7) (b : BitVec 7) (w : Bool) : Statement (.imulhI32 d a b w) := by
  have := d.isLt; have := a.isLt; have := b.isLt; have := bit_le w; show 100663298 + d.toNat * 262144 + a.toNat * 2048 + b.toNat * 16 + Sys2Proof.Bool.bit w < 2 ^ 32; omega
theorem imulhN32 (d : BitVec 7) (a : BitVec 7) (b : BitVec 7) (w : Bool) : Statement (.imulhN32 d a b w) := by
  have := d.isLt; have := a.isLt; have := b.isLt; have := bit_le w; show 100663300 + d.toNat * 262144 + a.toNat * 2048 + b.toNat * 16 + Sys2Proof.Bool.bit w < 2 ^ 32; omega
theorem imac (d : BitVec 7) (a : BitVec 7) (b : BitVec 7) (w : Bool) : Statement (.imac d a b w) := by
  have := d.isLt; have := a.isLt; have := b.isLt; have := bit_le w; show 100663302 + d.toNat * 262144 + a.toNat * 2048 + b.toNat * 16 + Sys2Proof.Bool.bit w < 2 ^ 32; omega
theorem iminI (d : BitVec 7) (a : BitVec 7) (b : BitVec 7) (w : Bool) : Statement (.iminI d a b w) := by
  have := d.isLt; have := a.isLt; have := b.isLt; have := bit_le w; show 134217728 + d.toNat * 262144 + a.toNat * 2048 + b.toNat * 16 + Sys2Proof.Bool.bit w < 2 ^ 32; omega
theorem imaxI (d : BitVec 7) (a : BitVec 7) (b : BitVec 7) (w : Bool) : Statement (.imaxI d a b w) := by
  have := d.isLt; have := a.isLt; have := b.isLt; have := bit_le w; show 134217730 + d.toNat * 262144 + a.toNat * 2048 + b.toNat * 16 + Sys2Proof.Bool.bit w < 2 ^ 32; omega
theorem iminN (d : BitVec 7) (a : BitVec 7) (b : BitVec 7) (w : Bool) : Statement (.iminN d a b w) := by
  have := d.isLt; have := a.isLt; have := b.isLt; have := bit_le w; show 134217732 + d.toNat * 262144 + a.toNat * 2048 + b.toNat * 16 + Sys2Proof.Bool.bit w < 2 ^ 32; omega
theorem imaxN (d : BitVec 7) (a : BitVec 7) (b : BitVec 7) (w : Bool) : Statement (.imaxN d a b w) := by
  have := d.isLt; have := a.isLt; have := b.isLt; have := bit_le w; show 134217734 + d.toNat * 262144 + a.toNat * 2048 + b.toNat * 16 + Sys2Proof.Bool.bit w < 2 ^ 32; omega
theorem iabs (d : BitVec 7) (a : BitVec 7) (w : Bool) : Statement (.iabs d a w) := by
  have := d.isLt; have := a.isLt; have := bit_le w; show 134217736 + d.toNat * 262144 + a.toNat * 2048 + Sys2Proof.Bool.bit w < 2 ^ 32; omega
theorem idif (d : BitVec 7) (a : BitVec 7) (b : BitVec 7) (w : Bool) : Statement (.idif d a b w) := by
  have := d.isLt; have := a.isLt; have := b.isLt; have := bit_le w; show 134217738 + d.toNat * 262144 + a.toNat * 2048 + b.toNat * 16 + Sys2Proof.Bool.bit w < 2 ^ 32; omega
theorem and (d : BitVec 7) (a : BitVec 7) (b : BitVec 7) (w : Bool) : Statement (.and d a b w) := by
  have := d.isLt; have := a.isLt; have := b.isLt; have := bit_le w; show 167772160 + d.toNat * 262144 + a.toNat * 2048 + b.toNat * 16 + Sys2Proof.Bool.bit w < 2 ^ 32; omega
theorem or (d : BitVec 7) (a : BitVec 7) (b : BitVec 7) (w : Bool) : Statement (.or d a b w) := by
  have := d.isLt; have := a.isLt; have := b.isLt; have := bit_le w; show 167772162 + d.toNat * 262144 + a.toNat * 2048 + b.toNat * 16 + Sys2Proof.Bool.bit w < 2 ^ 32; omega
theorem xor (d : BitVec 7) (a : BitVec 7) (b : BitVec 7) (w : Bool) : Statement (.xor d a b w) := by
  have := d.isLt; have := a.isLt; have := b.isLt; have := bit_le w; show 167772164 + d.toNat * 262144 + a.toNat * 2048 + b.toNat * 16 + Sys2Proof.Bool.bit w < 2 ^ 32; omega
theorem andn (d : BitVec 7) (a : BitVec 7) (b : BitVec 7) (w : Bool) : Statement (.andn d a b w) := by
  have := d.isLt; have := a.isLt; have := b.isLt; have := bit_le w; show 167772166 + d.toNat * 262144 + a.toNat * 2048 + b.toNat * 16 + Sys2Proof.Bool.bit w < 2 ^ 32; omega
theorem orn (d : BitVec 7) (a : BitVec 7) (b : BitVec 7) (w : Bool) : Statement (.orn d a b w) := by
  have := d.isLt; have := a.isLt; have := b.isLt; have := bit_le w; show 167772168 + d.toNat * 262144 + a.toNat * 2048 + b.toNat * 16 + Sys2Proof.Bool.bit w < 2 ^ 32; omega
theorem xnor (d : BitVec 7) (a : BitVec 7) (b : BitVec 7) (w : Bool) : Statement (.xnor d a b w) := by
  have := d.isLt; have := a.isLt; have := b.isLt; have := bit_le w; show 167772170 + d.toNat * 262144 + a.toNat * 2048 + b.toNat * 16 + Sys2Proof.Bool.bit w < 2 ^ 32; omega
theorem shlReg (d : BitVec 7) (a : BitVec 7) (b : BitVec 7) (w : Bool) : Statement (.shlReg d a b w) := by
  have := d.isLt; have := a.isLt; have := b.isLt; have := bit_le w; show 201326592 + d.toNat * 262144 + a.toNat * 2048 + b.toNat * 16 + Sys2Proof.Bool.bit w < 2 ^ 32; omega
theorem shrReg (d : BitVec 7) (a : BitVec 7) (b : BitVec 7) (w : Bool) : Statement (.shrReg d a b w) := by
  have := d.isLt; have := a.isLt; have := b.isLt; have := bit_le w; show 201326594 + d.toNat * 262144 + a.toNat * 2048 + b.toNat * 16 + Sys2Proof.Bool.bit w < 2 ^ 32; omega
theorem sarReg (d : BitVec 7) (a : BitVec 7) (b : BitVec 7) (w : Bool) : Statement (.sarReg d a b w) := by
  have := d.isLt; have := a.isLt; have := b.isLt; have := bit_le w; show 201326596 + d.toNat * 262144 + a.toNat * 2048 + b.toNat * 16 + Sys2Proof.Bool.bit w < 2 ^ 32; omega
theorem rolReg (d : BitVec 7) (a : BitVec 7) (b : BitVec 7) (w : Bool) : Statement (.rolReg d a b w) := by
  have := d.isLt; have := a.isLt; have := b.isLt; have := bit_le w; show 201326598 + d.toNat * 262144 + a.toNat * 2048 + b.toNat * 16 + Sys2Proof.Bool.bit w < 2 ^ 32; omega
theorem shlImm (d : BitVec 7) (a : BitVec 7) (c : BitVec 5) (w : Bool) : Statement (.shlImm d a c w) := by
  have := d.isLt; have := a.isLt; have := c.isLt; have := bit_le w; show 201326600 + d.toNat * 262144 + a.toNat * 2048 + c.toNat * 16 + Sys2Proof.Bool.bit w < 2 ^ 32; omega
theorem shrImm (d : BitVec 7) (a : BitVec 7) (c : BitVec 5) (w : Bool) : Statement (.shrImm d a c w) := by
  have := d.isLt; have := a.isLt; have := c.isLt; have := bit_le w; show 201326602 + d.toNat * 262144 + a.toNat * 2048 + c.toNat * 16 + Sys2Proof.Bool.bit w < 2 ^ 32; omega
theorem sarImm (d : BitVec 7) (a : BitVec 7) (c : BitVec 5) (w : Bool) : Statement (.sarImm d a c w) := by
  have := d.isLt; have := a.isLt; have := c.isLt; have := bit_le w; show 201326604 + d.toNat * 262144 + a.toNat * 2048 + c.toNat * 16 + Sys2Proof.Bool.bit w < 2 ^ 32; omega
theorem rolImm (d : BitVec 7) (a : BitVec 7) (c : BitVec 5) (w : Bool) : Statement (.rolImm d a c w) := by
  have := d.isLt; have := a.isLt; have := c.isLt; have := bit_le w; show 201326606 + d.toNat * 262144 + a.toNat * 2048 + c.toNat * 16 + Sys2Proof.Bool.bit w < 2 ^ 32; omega
theorem popc (d : BitVec 7) (a : BitVec 7) (w : Bool) : Statement (.popc d a w) := by
  have := d.isLt; have := a.isLt; have := bit_le w; show 234881024 + d.toNat * 262144 + a.toNat * 2048 + Sys2Proof.Bool.bit w < 2 ^ 32; omega
theorem clz (d : BitVec 7) (a : BitVec 7) (w : Bool) : Statement (.clz d a w) := by
  have := d.isLt; have := a.isLt; have := bit_le w; show 234881026 + d.toNat * 262144 + a.toNat * 2048 + Sys2Proof.Bool.bit w < 2 ^ 32; omega
theorem brev (d : BitVec 7) (a : BitVec 7) (w : Bool) : Statement (.brev d a w) := by
  have := d.isLt; have := a.isLt; have := bit_le w; show 234881028 + d.toNat * 262144 + a.toNat * 2048 + Sys2Proof.Bool.bit w < 2 ^ 32; omega
theorem ffs (d : BitVec 7) (a : BitVec 7) (w : Bool) : Statement (.ffs d a w) := by
  have := d.isLt; have := a.isLt; have := bit_le w; show 234881030 + d.toNat * 262144 + a.toNat * 2048 + Sys2Proof.Bool.bit w < 2 ^ 32; omega
theorem bfxN (d : BitVec 7) (a : BitVec 7) (b : BitVec 7) (w : Bool) : Statement (.bfxN d a b w) := by
  have := d.isLt; have := a.isLt; have := b.isLt; have := bit_le w; show 234881032 + d.toNat * 262144 + a.toNat * 2048 + b.toNat * 16 + Sys2Proof.Bool.bit w < 2 ^ 32; omega
theorem bfxI (d : BitVec 7) (a : BitVec 7) (b : BitVec 7) (w : Bool) : Statement (.bfxI d a b w) := by
  have := d.isLt; have := a.isLt; have := b.isLt; have := bit_le w; show 234881034 + d.toNat * 262144 + a.toNat * 2048 + b.toNat * 16 + Sys2Proof.Bool.bit w < 2 ^ 32; omega
theorem bfi (d : BitVec 7) (a : BitVec 7) (b : BitVec 7) (w : Bool) : Statement (.bfi d a b w) := by
  have := d.isLt; have := a.isLt; have := b.isLt; have := bit_le w; show 234881036 + d.toNat * 262144 + a.toNat * 2048 + b.toNat * 16 + Sys2Proof.Bool.bit w < 2 ^ 32; omega
theorem lea (d : BitVec 7) (a : BitVec 7) (b : BitVec 7) (s : BitVec 3) (w : Bool) : Statement (.lea d a b s w) := by
  have := d.isLt; have := a.isLt; have := b.isLt; have := s.isLt; have := bit_le w; show 268435456 + d.toNat * 262144 + a.toNat * 2048 + b.toNat * 16 + s.toNat * 2 + Sys2Proof.Bool.bit w < 2 ^ 32; omega
theorem movi (d : BitVec 7) (i : BitVec 17) (w : Bool) : Statement (.movi d i w) := by
  have := d.isLt; have := i.isLt; have := bit_le w; show 301989888 + d.toNat * 262144 + i.toNat * 2 + Sys2Proof.Bool.bit w < 2 ^ 32; omega
theorem mov (d : BitVec 7) (a : BitVec 7) (w : Bool) : Statement (.mov d a w) := by
  have := d.isLt; have := a.isLt; have := bit_le w; show 335544320 + d.toNat * 262144 + a.toNat * 2048 + Sys2Proof.Bool.bit w < 2 ^ 32; omega
theorem movgLo (d : BitVec 7) (g : BitVec 6) (w : Bool) : Statement (.movgLo d g w) := by
  have := d.isLt; have := g.isLt; have := bit_le w; show 335544322 + d.toNat * 262144 + g.toNat * 2048 + Sys2Proof.Bool.bit w < 2 ^ 32; omega
theorem movgHi (d : BitVec 7) (g : BitVec 6) (w : Bool) : Statement (.movgHi d g w) := by
  have := d.isLt; have := g.isLt; have := bit_le w; show 335544324 + d.toNat * 262144 + g.toNat * 2048 + Sys2Proof.Bool.bit w < 2 ^ 32; omega
theorem mov2 (d : BitVec 7) (a : BitVec 7) (w : Bool) : Statement (.mov2 d a w) := by
  have := d.isLt; have := a.isLt; have := bit_le w; show 335544326 + d.toNat * 262144 + a.toNat * 2048 + Sys2Proof.Bool.bit w < 2 ^ 32; omega
theorem srd (d : BitVec 7) (s : BitVec 12) (w : Bool) : Statement (.srd d s w) := by
  have := d.isLt; have := s.isLt; have := bit_le w; show 335544328 + d.toNat * 262144 + s.toNat * 16 + Sys2Proof.Bool.bit w < 2 ^ 32; omega
theorem cmov (d : BitVec 7) (a : BitVec 7) (p : BitVec 6) (n : Bool) (w : Bool) : Statement (.cmov d a p n w) := by
  have := d.isLt; have := a.isLt; have := p.isLt; have := bit_le n; have := bit_le w; show 369098752 + d.toNat * 262144 + a.toNat * 2048 + p.toNat * 32 + Sys2Proof.Bool.bit n * 16 + Sys2Proof.Bool.bit w < 2 ^ 32; omega
theorem cmovD (d : BitVec 7) (a : BitVec 7) (p : BitVec 6) (n : Bool) (w : Bool) : Statement (.cmovD d a p n w) := by
  have := d.isLt; have := a.isLt; have := p.isLt; have := bit_le n; have := bit_le w; show 369098754 + d.toNat * 262144 + a.toNat * 2048 + p.toNat * 32 + Sys2Proof.Bool.bit n * 16 + Sys2Proof.Bool.bit w < 2 ^ 32; omega
theorem icmp (p : BitVec 6) (a : BitVec 7) (b : BitVec 7) (c : BitVec 4) (w : Bool) : Statement (.icmp p a b c w) := by
  have := p.isLt; have := a.isLt; have := b.isLt; have := c.isLt; have := bit_le w; show 402653184 + p.toNat * 524288 + a.toNat * 4096 + b.toNat * 32 + c.toNat * 2 + Sys2Proof.Bool.bit w < 2 ^ 32; omega
theorem fcmp (p : BitVec 6) (a : BitVec 7) (b : BitVec 7) (c : BitVec 4) (w : Bool) : Statement (.fcmp p a b c w) := by
  have := p.isLt; have := a.isLt; have := b.isLt; have := c.isLt; have := bit_le w; show 436207616 + p.toNat * 524288 + a.toNat * 4096 + b.toNat * 32 + c.toNat * 2 + Sys2Proof.Bool.bit w < 2 ^ 32; omega
theorem pand (d : BitVec 6) (a : BitVec 6) (b : BitVec 6) (x : Bool) (y : Bool) : Statement (.pand d a b x y) := by
  have := d.isLt; have := a.isLt; have := b.isLt; have := bit_le x; have := bit_le y; show 469762048 + d.toNat * 524288 + a.toNat * 8192 + b.toNat * 128 + Sys2Proof.Bool.bit x * 8 + Sys2Proof.Bool.bit y * 4 < 2 ^ 32; omega
theorem por (d : BitVec 6) (a : BitVec 6) (b : BitVec 6) (x : Bool) (y : Bool) : Statement (.por d a b x y) := by
  have := d.isLt; have := a.isLt; have := b.isLt; have := bit_le x; have := bit_le y; show 469762064 + d.toNat * 524288 + a.toNat * 8192 + b.toNat * 128 + Sys2Proof.Bool.bit x * 8 + Sys2Proof.Bool.bit y * 4 < 2 ^ 32; omega
theorem pxor (d : BitVec 6) (a : BitVec 6) (b : BitVec 6) (x : Bool) (y : Bool) : Statement (.pxor d a b x y) := by
  have := d.isLt; have := a.isLt; have := b.isLt; have := bit_le x; have := bit_le y; show 469762080 + d.toNat * 524288 + a.toNat * 8192 + b.toNat * 128 + Sys2Proof.Bool.bit x * 8 + Sys2Proof.Bool.bit y * 4 < 2 ^ 32; omega
theorem pmov (d : BitVec 6) (a : BitVec 6) (x : Bool) : Statement (.pmov d a x) := by
  have := d.isLt; have := a.isLt; have := bit_le x; show 469762096 + d.toNat * 524288 + a.toNat * 8192 + Sys2Proof.Bool.bit x * 8 < 2 ^ 32; omega
theorem pset (d : BitVec 6) (y : Bool) : Statement (.pset d y) := by
  have := d.isLt; have := bit_le y; show 469762112 + d.toNat * 524288 + Sys2Proof.Bool.bit y * 4 < 2 ^ 32; omega
theorem fadd (d : BitVec 7) (a : BitVec 7) (b : BitVec 7) (t : BitVec 2) (w : Bool) : Statement (.fadd d a b t w) := by
  have := d.isLt; have := a.isLt; have := b.isLt; have := t.isLt; have := bit_le w; show 503316480 + d.toNat * 262144 + a.toNat * 2048 + b.toNat * 16 + t.toNat * 4 + Sys2Proof.Bool.bit w < 2 ^ 32; omega
theorem fsub (d : BitVec 7) (a : BitVec 7) (b : BitVec 7) (t : BitVec 2) (w : Bool) : Statement (.fsub d a b t w) := by
  have := d.isLt; have := a.isLt; have := b.isLt; have := t.isLt; have := bit_le w; show 503316482 + d.toNat * 262144 + a.toNat * 2048 + b.toNat * 16 + t.toNat * 4 + Sys2Proof.Bool.bit w < 2 ^ 32; omega
theorem fmul (d : BitVec 7) (a : BitVec 7) (b : BitVec 7) (t : BitVec 2) (n : Bool) (w : Bool) : Statement (.fmul d a b t n w) := by
  have := d.isLt; have := a.isLt; have := b.isLt; have := t.isLt; have := bit_le n; have := bit_le w; show 536870912 + d.toNat * 262144 + a.toNat * 2048 + b.toNat * 16 + t.toNat * 4 + Sys2Proof.Bool.bit n * 2 + Sys2Proof.Bool.bit w < 2 ^ 32; omega
theorem fmac (d : BitVec 7) (a : BitVec 7) (b : BitVec 7) (t : BitVec 2) (n : Bool) (w : Bool) : Statement (.fmac d a b t n w) := by
  have := d.isLt; have := a.isLt; have := b.isLt; have := t.isLt; have := bit_le n; have := bit_le w; show 570425344 + d.toNat * 262144 + a.toNat * 2048 + b.toNat * 16 + t.toNat * 4 + Sys2Proof.Bool.bit n * 2 + Sys2Proof.Bool.bit w < 2 ^ 32; omega
theorem fmin (d : BitVec 7) (a : BitVec 7) (b : BitVec 7) (t : BitVec 2) (w : Bool) : Statement (.fmin d a b t w) := by
  have := d.isLt; have := a.isLt; have := b.isLt; have := t.isLt; have := bit_le w; show 603979776 + d.toNat * 262144 + a.toNat * 2048 + b.toNat * 16 + t.toNat * 4 + Sys2Proof.Bool.bit w < 2 ^ 32; omega
theorem fmax (d : BitVec 7) (a : BitVec 7) (b : BitVec 7) (t : BitVec 2) (w : Bool) : Statement (.fmax d a b t w) := by
  have := d.isLt; have := a.isLt; have := b.isLt; have := t.isLt; have := bit_le w; show 603979778 + d.toNat * 262144 + a.toNat * 2048 + b.toNat * 16 + t.toNat * 4 + Sys2Proof.Bool.bit w < 2 ^ 32; omega
theorem frcp (d : BitVec 7) (a : BitVec 7) (w : Bool) : Statement (.frcp d a w) := by
  have := d.isLt; have := a.isLt; have := bit_le w; show 637534208 + d.toNat * 262144 + a.toNat * 2048 + Sys2Proof.Bool.bit w < 2 ^ 32; omega
theorem frsq (d : BitVec 7) (a : BitVec 7) (w : Bool) : Statement (.frsq d a w) := by
  have := d.isLt; have := a.isLt; have := bit_le w; show 637534210 + d.toNat * 262144 + a.toNat * 2048 + Sys2Proof.Bool.bit w < 2 ^ 32; omega
theorem fsqrt (d : BitVec 7) (a : BitVec 7) (w : Bool) : Statement (.fsqrt d a w) := by
  have := d.isLt; have := a.isLt; have := bit_le w; show 637534212 + d.toNat * 262144 + a.toNat * 2048 + Sys2Proof.Bool.bit w < 2 ^ 32; omega
theorem fex2 (d : BitVec 7) (a : BitVec 7) (w : Bool) : Statement (.fex2 d a w) := by
  have := d.isLt; have := a.isLt; have := bit_le w; show 637534214 + d.toNat * 262144 + a.toNat * 2048 + Sys2Proof.Bool.bit w < 2 ^ 32; omega
theorem flg2 (d : BitVec 7) (a : BitVec 7) (w : Bool) : Statement (.flg2 d a w) := by
  have := d.isLt; have := a.isLt; have := bit_le w; show 637534216 + d.toNat * 262144 + a.toNat * 2048 + Sys2Proof.Bool.bit w < 2 ^ 32; omega
theorem fsinp (d : BitVec 7) (a : BitVec 7) (w : Bool) : Statement (.fsinp d a w) := by
  have := d.isLt; have := a.isLt; have := bit_le w; show 637534218 + d.toNat * 262144 + a.toNat * 2048 + Sys2Proof.Bool.bit w < 2 ^ 32; omega
theorem fcosp (d : BitVec 7) (a : BitVec 7) (w : Bool) : Statement (.fcosp d a w) := by
  have := d.isLt; have := a.isLt; have := bit_le w; show 637534220 + d.toNat * 262144 + a.toNat * 2048 + Sys2Proof.Bool.bit w < 2 ^ 32; omega
theorem frnd (d : BitVec 7) (a : BitVec 7) (t : BitVec 2) (m : BitVec 3) (w : Bool) : Statement (.frnd d a t m w) := by
  have := d.isLt; have := a.isLt; have := t.isLt; have := m.isLt; have := bit_le w; show 671088640 + d.toNat * 262144 + a.toNat * 2048 + t.toNat * 16 + m.toNat * 2 + Sys2Proof.Bool.bit w < 2 ^ 32; omega
theorem cvt (d : BitVec 7) (a : BitVec 7) (c : BitVec 6) (r : BitVec 3) (s : Bool) (w : Bool) : Statement (.cvt d a c r s w) := by
  have := d.isLt; have := a.isLt; have := c.isLt; have := r.isLt; have := bit_le s; have := bit_le w; show 704643072 + d.toNat * 262144 + a.toNat * 2048 + c.toNat * 32 + r.toNat * 4 + Sys2Proof.Bool.bit s * 2 + Sys2Proof.Bool.bit w < 2 ^ 32; omega
theorem pkn (d : BitVec 7) (a : BitVec 7) (b : BitVec 7) (f : BitVec 3) (w : Bool) : Statement (.pkn d a b f w) := by
  have := d.isLt; have := a.isLt; have := b.isLt; have := f.isLt; have := bit_le w; show 738197504 + d.toNat * 262144 + a.toNat * 2048 + b.toNat * 16 + f.toNat * 2 + Sys2Proof.Bool.bit w < 2 ^ 32; omega
theorem upkn (d : BitVec 7) (a : BitVec 7) (b : BitVec 7) (f : BitVec 3) (w : Bool) : Statement (.upkn d a b f w) := by
  have := d.isLt; have := a.isLt; have := b.isLt; have := f.isLt; have := bit_le w; show 771751936 + d.toNat * 262144 + a.toNat * 2048 + b.toNat * 16 + f.toNat * 2 + Sys2Proof.Bool.bit w < 2 ^ 32; omega
theorem pkb (d : BitVec 7) (a : BitVec 7) (b : BitVec 7) (f : BitVec 3) (w : Bool) : Statement (.pkb d a b f w) := by
  have := d.isLt; have := a.isLt; have := b.isLt; have := f.isLt; have := bit_le w; show 805306368 + d.toNat * 262144 + a.toNat * 2048 + b.toNat * 16 + f.toNat * 2 + Sys2Proof.Bool.bit w < 2 ^ 32; omega
theorem upkb (d : BitVec 7) (a : BitVec 7) (b : BitVec 7) (f : BitVec 3) (w : Bool) : Statement (.upkb d a b f w) := by
  have := d.isLt; have := a.isLt; have := b.isLt; have := f.isLt; have := bit_le w; show 838860800 + d.toNat * 262144 + a.toNat * 2048 + b.toNat * 16 + f.toNat * 2 + Sys2Proof.Bool.bit w < 2 ^ 32; omega
theorem bscl (d : BitVec 7) (a : BitVec 7) (f : BitVec 3) (w : Bool) : Statement (.bscl d a f w) := by
  have := d.isLt; have := a.isLt; have := f.isLt; have := bit_le w; show 872415232 + d.toNat * 262144 + a.toNat * 2048 + f.toNat * 2 + Sys2Proof.Bool.bit w < 2 ^ 32; omega
theorem shfl (d : BitVec 7) (a : BitVec 7) (b : BitVec 7) (f : BitVec 3) (w : Bool) : Statement (.shfl d a b f w) := by
  have := d.isLt; have := a.isLt; have := b.isLt; have := f.isLt; have := bit_le w; show 905969664 + d.toNat * 262144 + a.toNat * 2048 + b.toNat * 16 + f.toNat * 2 + Sys2Proof.Bool.bit w < 2 ^ 32; omega
theorem redx (d : BitVec 7) (a : BitVec 7) (f : BitVec 3) (w : Bool) : Statement (.redx d a f w) := by
  have := d.isLt; have := a.isLt; have := f.isLt; have := bit_le w; show 939524096 + d.toNat * 262144 + a.toNat * 2048 + f.toNat * 2 + Sys2Proof.Bool.bit w < 2 ^ 32; omega
theorem scnx (d : BitVec 7) (a : BitVec 7) (f : BitVec 3) (w : Bool) : Statement (.scnx d a f w) := by
  have := d.isLt; have := a.isLt; have := f.isLt; have := bit_le w; show 973078528 + d.toNat * 262144 + a.toNat * 2048 + f.toNat * 2 + Sys2Proof.Bool.bit w < 2 ^ 32; omega
theorem vote (d : BitVec 7) (a : BitVec 7) (f : BitVec 3) (w : Bool) : Statement (.vote d a f w) := by
  have := d.isLt; have := a.isLt; have := f.isLt; have := bit_le w; show 1006632960 + d.toNat * 262144 + a.toNat * 2048 + f.toNat * 2 + Sys2Proof.Bool.bit w < 2 ^ 32; omega
theorem ld (d : BitVec 7) (a : BitVec 7) (g : BitVec 5) (z : BitVec 3) (h : BitVec 2) (w : Bool) : Statement (.ld d a g z h w) := by
  have := d.isLt; have := a.isLt; have := g.isLt; have := z.isLt; have := h.isLt; have := bit_le w; show 1040187392 + d.toNat * 262144 + a.toNat * 2048 + g.toNat * 64 + z.toNat * 8 + h.toNat * 2 + Sys2Proof.Bool.bit w < 2 ^ 32; omega
theorem st (d : BitVec 7) (a : BitVec 7) (g : BitVec 5) (z : BitVec 3) (h : BitVec 2) (w : Bool) : Statement (.st d a g z h w) := by
  have := d.isLt; have := a.isLt; have := g.isLt; have := z.isLt; have := h.isLt; have := bit_le w; show 1073741824 + d.toNat * 262144 + a.toNat * 2048 + g.toNat * 64 + z.toNat * 8 + h.toNat * 2 + Sys2Proof.Bool.bit w < 2 ^ 32; omega
theorem ldf (d : BitVec 7) (a : BitVec 7) (g : BitVec 5) (h : BitVec 2) (w : Bool) : Statement (.ldf d a g h w) := by
  have := d.isLt; have := a.isLt; have := g.isLt; have := h.isLt; have := bit_le w; show 1107296272 + d.toNat * 262144 + a.toNat * 2048 + g.toNat * 64 + h.toNat * 2 + Sys2Proof.Bool.bit w < 2 ^ 32; omega
theorem ste (d : BitVec 7) (a : BitVec 7) (g : BitVec 5) (w : Bool) : Statement (.ste d a g w) := by
  have := d.isLt; have := a.isLt; have := g.isLt; have := bit_le w; show 1140850704 + d.toNat * 262144 + a.toNat * 2048 + g.toNat * 64 + Sys2Proof.Bool.bit w < 2 ^ 32; omega
theorem stf (d : BitVec 7) (a : BitVec 7) (g : BitVec 5) (w : Bool) : Statement (.stf d a g w) := by
  have := d.isLt; have := a.isLt; have := g.isLt; have := bit_le w; show 1140850706 + d.toNat * 262144 + a.toNat * 2048 + g.toNat * 64 + Sys2Proof.Bool.bit w < 2 ^ 32; omega
theorem atom (d : BitVec 7) (a : BitVec 7) (g : BitVec 5) (o : BitVec 4) (n : Bool) (w : Bool) : Statement (.atom d a g o n w) := by
  have := d.isLt; have := a.isLt; have := g.isLt; have := o.isLt; have := bit_le n; have := bit_le w; show 1174405120 + d.toNat * 262144 + a.toNat * 2048 + g.toNat * 64 + o.toNat * 4 + Sys2Proof.Bool.bit n * 2 + Sys2Proof.Bool.bit w < 2 ^ 32; omega
theorem cpy (d : BitVec 7) (a : BitVec 7) (g : BitVec 5) (z : BitVec 2) (t : Bool) (w : Bool) : Statement (.cpy d a g z t w) := by
  have := d.isLt; have := a.isLt; have := g.isLt; have := z.isLt; have := bit_le t; have := bit_le w; show 1207959552 + d.toNat * 262144 + a.toNat * 2048 + g.toNat * 64 + z.toNat * 16 + Sys2Proof.Bool.bit t * 8 + Sys2Proof.Bool.bit w < 2 ^ 32; omega
theorem pf (a : BitVec 7) (g : BitVec 5) (h : BitVec 2) (w : Bool) : Statement (.pf a g h w) := by
  have := a.isLt; have := g.isLt; have := h.isLt; have := bit_le w; show 1241513984 + a.toNat * 2048 + g.toNat * 64 + h.toNat * 2 + Sys2Proof.Bool.bit w < 2 ^ 32; omega
theorem tex (d : BitVec 7) (a : BitVec 7) (g : BitVec 6) (m : BitVec 4) (w : Bool) : Statement (.tex d a g m w) := by
  have := d.isLt; have := a.isLt; have := g.isLt; have := m.isLt; have := bit_le w; show 1275068416 + d.toNat * 262144 + a.toNat * 2048 + g.toNat * 32 + m.toNat * 2 + Sys2Proof.Bool.bit w < 2 ^ 32; omega
theorem tld (d : BitVec 7) (a : BitVec 7) (g : BitVec 6) (m : BitVec 3) (w : Bool) : Statement (.tld d a g m w) := by
  have := d.isLt; have := a.isLt; have := g.isLt; have := m.isLt; have := bit_le w; show 1308622848 + d.toNat * 262144 + a.toNat * 2048 + g.toNat * 32 + m.toNat * 2 + Sys2Proof.Bool.bit w < 2 ^ 32; omega
theorem fpost (p : BitVec 6) (a : BitVec 7) (g : BitVec 6) (w : Bool) : Statement (.fpost p a g w) := by
  have := p.isLt; have := a.isLt; have := g.isLt; have := bit_le w; show 1342177280 + p.toNat * 524288 + a.toNat * 4096 + g.toNat * 64 + Sys2Proof.Bool.bit w < 2 ^ 32; omega
theorem br (p : BitVec 6) (n : Bool) (u : Bool) (r : BitVec 4) (o : BitVec 13) : Statement (.br p n u r o) := by
  have := p.isLt; have := r.isLt; have := o.isLt; have := bit_le n; have := bit_le u; show 1375731712 + p.toNat * 524288 + Sys2Proof.Bool.bit n * 262144 + Sys2Proof.Bool.bit u * 131072 + r.toNat * 8192 + o.toNat < 2 ^ 32; omega
theorem brx (a : BitVec 7) (r : BitVec 4) (u : Bool) (w : Bool) : Statement (.brx a r u w) := by
  have := a.isLt; have := r.isLt; have := bit_le u; have := bit_le w; show 1409286144 + a.toNat * 2048 + r.toNat * 128 + Sys2Proof.Bool.bit u * 64 + Sys2Proof.Bool.bit w < 2 ^ 32; omega
theorem call (p : BitVec 6) (n : Bool) (u : Bool) (r : BitVec 4) (o : BitVec 13) : Statement (.call p n u r o) := by
  have := p.isLt; have := r.isLt; have := o.isLt; have := bit_le n; have := bit_le u; show 1442840576 + p.toNat * 524288 + Sys2Proof.Bool.bit n * 262144 + Sys2Proof.Bool.bit u * 131072 + r.toNat * 8192 + o.toNat < 2 ^ 32; omega
theorem ret : Statement (.ret) := by
  show 1476395008 < 2 ^ 32; omega
theorem exit : Statement (.exit) := by
  show 1509949440 < 2 ^ 32; omega
theorem mfrg (d : BitVec 7) (s : BitVec 4) : Statement (.mfrg d s) := by
  have := d.isLt; have := s.isLt; show 1879048192 + d.toNat * 262144 + s.toNat * 128 < 2 ^ 32; omega
theorem mtld (d : BitVec 7) (s : BitVec 4) : Statement (.mtld d s) := by
  have := d.isLt; have := s.isLt; show 1912602624 + d.toNat * 262144 + s.toNat * 128 < 2 ^ 32; omega
theorem mtst (a : BitVec 7) (s : BitVec 4) : Statement (.mtst a s) := by
  have := a.isLt; have := s.isLt; show 1946157056 + a.toNat * 2048 + s.toNat * 128 < 2 ^ 32; omega
theorem mdsc (p : BitVec 6) (n : Bool) : Statement (.mdsc p n) := by
  have := p.isLt; have := bit_le n; show 1979711488 + p.toNat * 524288 + Sys2Proof.Bool.bit n * 262144 < 2 ^ 32; omega
theorem mend : Statement (.mend) := by
  show 2013265920 < 2 ^ 32; omega
theorem nop : Statement (.nop) := by
  show 2147483648 < 2 ^ 32; omega
theorem gadd (d : BitVec 6) (a : BitVec 6) (b : BitVec 6) (w : Bool) : Statement (.gadd d a b w) := by
  have := d.isLt; have := a.isLt; have := b.isLt; have := bit_le w; show 2181038080 + d.toNat * 524288 + a.toNat * 8192 + b.toNat * 128 + Sys2Proof.Bool.bit w < 2 ^ 32; omega
theorem gsub (d : BitVec 6) (a : BitVec 6) (b : BitVec 6) (w : Bool) : Statement (.gsub d a b w) := by
  have := d.isLt; have := a.isLt; have := b.isLt; have := bit_le w; show 2181038082 + d.toNat * 524288 + a.toNat * 8192 + b.toNat * 128 + Sys2Proof.Bool.bit w < 2 ^ 32; omega
theorem gmul (d : BitVec 6) (a : BitVec 6) (b : BitVec 6) (w : Bool) : Statement (.gmul d a b w) := by
  have := d.isLt; have := a.isLt; have := b.isLt; have := bit_le w; show 2181038084 + d.toNat * 524288 + a.toNat * 8192 + b.toNat * 128 + Sys2Proof.Bool.bit w < 2 ^ 32; omega
theorem gmulhN (d : BitVec 6) (a : BitVec 6) (b : BitVec 6) (w : Bool) : Statement (.gmulhN d a b w) := by
  have := d.isLt; have := a.isLt; have := b.isLt; have := bit_le w; show 2181038086 + d.toNat * 524288 + a.toNat * 8192 + b.toNat * 128 + Sys2Proof.Bool.bit w < 2 ^ 32; omega
theorem gmulhI (d : BitVec 6) (a : BitVec 6) (b : BitVec 6) (w : Bool) : Statement (.gmulhI d a b w) := by
  have := d.isLt; have := a.isLt; have := b.isLt; have := bit_le w; show 2181038088 + d.toNat * 524288 + a.toNat * 8192 + b.toNat * 128 + Sys2Proof.Bool.bit w < 2 ^ 32; omega
theorem gand (d : BitVec 6) (a : BitVec 6) (b : BitVec 6) (w : Bool) : Statement (.gand d a b w) := by
  have := d.isLt; have := a.isLt; have := b.isLt; have := bit_le w; show 2181038090 + d.toNat * 524288 + a.toNat * 8192 + b.toNat * 128 + Sys2Proof.Bool.bit w < 2 ^ 32; omega
theorem gor (d : BitVec 6) (a : BitVec 6) (b : BitVec 6) (w : Bool) : Statement (.gor d a b w) := by
  have := d.isLt; have := a.isLt; have := b.isLt; have := bit_le w; show 2181038092 + d.toNat * 524288 + a.toNat * 8192 + b.toNat * 128 + Sys2Proof.Bool.bit w < 2 ^ 32; omega
theorem gxor (d : BitVec 6) (a : BitVec 6) (b : BitVec 6) (w : Bool) : Statement (.gxor d a b w) := by
  have := d.isLt; have := a.isLt; have := b.isLt; have := bit_le w; show 2181038094 + d.toNat * 524288 + a.toNat * 8192 + b.toNat * 128 + Sys2Proof.Bool.bit w < 2 ^ 32; omega
theorem gandn (d : BitVec 6) (a : BitVec 6) (b : BitVec 6) (w : Bool) : Statement (.gandn d a b w) := by
  have := d.isLt; have := a.isLt; have := b.isLt; have := bit_le w; show 2181038096 + d.toNat * 524288 + a.toNat * 8192 + b.toNat * 128 + Sys2Proof.Bool.bit w < 2 ^ 32; omega
theorem gshl (d : BitVec 6) (a : BitVec 6) (b : BitVec 6) (w : Bool) : Statement (.gshl d a b w) := by
  have := d.isLt; have := a.isLt; have := b.isLt; have := bit_le w; show 2181038098 + d.toNat * 524288 + a.toNat * 8192 + b.toNat * 128 + Sys2Proof.Bool.bit w < 2 ^ 32; omega
theorem gshr (d : BitVec 6) (a : BitVec 6) (b : BitVec 6) (w : Bool) : Statement (.gshr d a b w) := by
  have := d.isLt; have := a.isLt; have := b.isLt; have := bit_le w; show 2181038100 + d.toNat * 524288 + a.toNat * 8192 + b.toNat * 128 + Sys2Proof.Bool.bit w < 2 ^ 32; omega
theorem gsar (d : BitVec 6) (a : BitVec 6) (b : BitVec 6) (w : Bool) : Statement (.gsar d a b w) := by
  have := d.isLt; have := a.isLt; have := b.isLt; have := bit_le w; show 2181038102 + d.toNat * 524288 + a.toNat * 8192 + b.toNat * 128 + Sys2Proof.Bool.bit w < 2 ^ 32; omega
theorem gminI (d : BitVec 6) (a : BitVec 6) (b : BitVec 6) (w : Bool) : Statement (.gminI d a b w) := by
  have := d.isLt; have := a.isLt; have := b.isLt; have := bit_le w; show 2181038104 + d.toNat * 524288 + a.toNat * 8192 + b.toNat * 128 + Sys2Proof.Bool.bit w < 2 ^ 32; omega
theorem gmaxI (d : BitVec 6) (a : BitVec 6) (b : BitVec 6) (w : Bool) : Statement (.gmaxI d a b w) := by
  have := d.isLt; have := a.isLt; have := b.isLt; have := bit_le w; show 2181038106 + d.toNat * 524288 + a.toNat * 8192 + b.toNat * 128 + Sys2Proof.Bool.bit w < 2 ^ 32; omega
theorem gminN (d : BitVec 6) (a : BitVec 6) (b : BitVec 6) (w : Bool) : Statement (.gminN d a b w) := by
  have := d.isLt; have := a.isLt; have := b.isLt; have := bit_le w; show 2181038108 + d.toNat * 524288 + a.toNat * 8192 + b.toNat * 128 + Sys2Proof.Bool.bit w < 2 ^ 32; omega
theorem gmaxN (d : BitVec 6) (a : BitVec 6) (b : BitVec 6) (w : Bool) : Statement (.gmaxN d a b w) := by
  have := d.isLt; have := a.isLt; have := b.isLt; have := bit_le w; show 2181038110 + d.toNat * 524288 + a.toNat * 8192 + b.toNat * 128 + Sys2Proof.Bool.bit w < 2 ^ 32; omega
theorem gaddi (d : BitVec 6) (a : BitVec 6) (i : BitVec 12) (w : Bool) : Statement (.gaddi d a i w) := by
  have := d.isLt; have := a.isLt; have := i.isLt; have := bit_le w; show 2214592512 + d.toNat * 524288 + a.toNat * 8192 + i.toNat * 2 + Sys2Proof.Bool.bit w < 2 ^ 32; omega
theorem gmovi (d : BitVec 6) (i : BitVec 18) (w : Bool) : Statement (.gmovi d i w) := by
  have := d.isLt; have := i.isLt; have := bit_le w; show 2248146944 + d.toNat * 524288 + i.toNat * 2 + Sys2Proof.Bool.bit w < 2 ^ 32; omega
theorem gcmp (q : BitVec 4) (a : BitVec 6) (b : BitVec 6) (c : BitVec 4) (w : Bool) : Statement (.gcmp q a b c w) := by
  have := q.isLt; have := a.isLt; have := b.isLt; have := c.isLt; have := bit_le w; show 2281701376 + q.toNat * 2097152 + a.toNat * 32768 + b.toNat * 512 + c.toNat * 32 + Sys2Proof.Bool.bit w < 2 ^ 32; omega
theorem qand (q : BitVec 4) (x : BitVec 4) (y : BitVec 4) (n : Bool) (m : Bool) : Statement (.qand q x y n m) := by
  have := q.isLt; have := x.isLt; have := y.isLt; have := bit_le n; have := bit_le m; show 2315255808 + q.toNat * 2097152 + x.toNat * 131072 + y.toNat * 8192 + Sys2Proof.Bool.bit n * 512 + Sys2Proof.Bool.bit m * 256 < 2 ^ 32; omega
theorem qor (q : BitVec 4) (x : BitVec 4) (y : BitVec 4) (n : Bool) (m : Bool) : Statement (.qor q x y n m) := by
  have := q.isLt; have := x.isLt; have := y.isLt; have := bit_le n; have := bit_le m; show 2315256832 + q.toNat * 2097152 + x.toNat * 131072 + y.toNat * 8192 + Sys2Proof.Bool.bit n * 512 + Sys2Proof.Bool.bit m * 256 < 2 ^ 32; omega
theorem qxor (q : BitVec 4) (x : BitVec 4) (y : BitVec 4) (n : Bool) (m : Bool) : Statement (.qxor q x y n m) := by
  have := q.isLt; have := x.isLt; have := y.isLt; have := bit_le n; have := bit_le m; show 2315257856 + q.toNat * 2097152 + x.toNat * 131072 + y.toNat * 8192 + Sys2Proof.Bool.bit n * 512 + Sys2Proof.Bool.bit m * 256 < 2 ^ 32; omega
theorem qmov (q : BitVec 4) (x : BitVec 4) (n : Bool) : Statement (.qmov q x n) := by
  have := q.isLt; have := x.isLt; have := bit_le n; show 2315258880 + q.toNat * 2097152 + x.toNat * 131072 + Sys2Proof.Bool.bit n * 512 < 2 ^ 32; omega
theorem qset (q : BitVec 4) (m : Bool) : Statement (.qset q m) := by
  have := q.isLt; have := bit_le m; show 2315259904 + q.toNat * 2097152 + Sys2Proof.Bool.bit m * 256 < 2 ^ 32; omega
theorem gmov (d : BitVec 6) (a : BitVec 6) (w : Bool) : Statement (.gmov d a w) := by
  have := d.isLt; have := a.isLt; have := bit_le w; show 2348810240 + d.toNat * 524288 + a.toNat * 8192 + Sys2Proof.Bool.bit w < 2 ^ 32; omega
theorem gsrd (d : BitVec 6) (s : BitVec 12) (w : Bool) : Statement (.gsrd d s w) := by
  have := d.isLt; have := s.isLt; have := bit_le w; show 2348810242 + d.toNat * 524288 + s.toNat * 128 + Sys2Proof.Bool.bit w < 2 ^ 32; omega
theorem glane (d : BitVec 6) (a : BitVec 6) (b : BitVec 6) (w : Bool) : Statement (.glane d a b w) := by
  have := d.isLt; have := a.isLt; have := b.isLt; have := bit_le w; show 2348810244 + d.toNat * 524288 + a.toNat * 8192 + b.toNat * 128 + Sys2Proof.Bool.bit w < 2 ^ 32; omega
theorem gsrw (h : BitVec 6) (a : BitVec 6) (l : BitVec 6) (w : Bool) : Statement (.gsrw h a l w) := by
  have := h.isLt; have := a.isLt; have := l.isLt; have := bit_le w; show 2348810246 + h.toNat * 524288 + a.toNat * 8192 + l.toNat * 128 + Sys2Proof.Bool.bit w < 2 ^ 32; omega
theorem gbr (q : BitVec 4) (n : Bool) (r : BitVec 4) (o : BitVec 16) : Statement (.gbr q n r o) := by
  have := q.isLt; have := r.isLt; have := o.isLt; have := bit_le n; show 2382364672 + q.toNat * 2097152 + Sys2Proof.Bool.bit n * 1048576 + r.toNat * 65536 + o.toNat < 2 ^ 32; omega
theorem rep (c : BitVec 6) (x : BitVec 3) (y : BitVec 3) (z : BitVec 3) : Statement (.rep c x y z) := by
  have := c.isLt; have := x.isLt; have := y.isLt; have := z.isLt; show 2449473536 + c.toNat * 524288 + x.toNat * 65536 + y.toNat * 8192 + z.toNat * 1024 < 2 ^ 32; omega
theorem lit (l : BitVec 25) : Statement (.lit l) := by
  have := l.isLt; show 2483027968 + l.toNat < 2 ^ 32; omega
theorem fence (s : BitVec 3) (o : BitVec 2) (e : Bool) : Statement (.fence s o e) := by
  have := s.isLt; have := o.isLt; have := bit_le e; show 2516582400 + s.toNat * 4194304 + o.toNat * 1048576 + Sys2Proof.Bool.bit e * 524288 < 2 ^ 32; omega
theorem bara (d : BitVec 6) (a : BitVec 6) (q : BitVec 4) (s : BitVec 3) (w : Bool) : Statement (.bara d a q s w) := by
  have := d.isLt; have := a.isLt; have := q.isLt; have := s.isLt; have := bit_le w; show 2550136832 + d.toNat * 524288 + a.toNat * 8192 + q.toNat * 128 + s.toNat * 2 + Sys2Proof.Bool.bit w < 2 ^ 32; omega
theorem bararr (a : BitVec 6) (b : BitVec 6) (x : Bool) (r : Bool) (w : Bool) : Statement (.bararr a b x r w) := by
  have := a.isLt; have := b.isLt; have := bit_le x; have := bit_le r; have := bit_le w; show 2583691264 + a.toNat * 8192 + b.toNat * 128 + Sys2Proof.Bool.bit x * 4 + Sys2Proof.Bool.bit r * 2 + Sys2Proof.Bool.bit w < 2 ^ 32; omega
theorem barwait (a : BitVec 6) (b : BitVec 6) (w : Bool) : Statement (.barwait a b w) := by
  have := a.isLt; have := b.isLt; have := bit_le w; show 2617245696 + a.toNat * 8192 + b.toNat * 128 + Sys2Proof.Bool.bit w < 2 ^ 32; omega
theorem barref (a : BitVec 6) (w : Bool) : Statement (.barref a w) := by
  have := a.isLt; have := bit_le w; show 2650800128 + a.toNat * 8192 + Sys2Proof.Bool.bit w < 2 ^ 32; omega
theorem bardrop (a : BitVec 6) (w : Bool) : Statement (.bardrop a w) := by
  have := a.isLt; have := bit_le w; show 2650800130 + a.toNat * 8192 + Sys2Proof.Bool.bit w < 2 ^ 32; omega
theorem cpyseal (w : Bool) : Statement (.cpyseal w) := by
  have := bit_le w; show 2684354560 + Sys2Proof.Bool.bit w < 2 ^ 32; omega
theorem cpywait (n : BitVec 6) (w : Bool) : Statement (.cpywait n w) := by
  have := n.isLt; have := bit_le w; show 2717908992 + n.toNat * 2 + Sys2Proof.Bool.bit w < 2 ^ 32; omega
theorem mma (d : BitVec 6) (a : BitVec 6) (y : BitVec 3) (x : BitVec 3) (w : Bool) : Statement (.mma d a y x w) := by
  have := d.isLt; have := a.isLt; have := y.isLt; have := x.isLt; have := bit_le w; show 2751463424 + d.toNat * 524288 + a.toNat * 8192 + y.toNat * 16 + x.toNat * 2 + Sys2Proof.Bool.bit w < 2 ^ 32; omega
theorem mmaz (d : BitVec 6) (a : BitVec 6) (y : BitVec 3) (x : BitVec 3) (w : Bool) : Statement (.mmaz d a y x w) := by
  have := d.isLt; have := a.isLt; have := y.isLt; have := x.isLt; have := bit_le w; show 2785017856 + d.toNat * 524288 + a.toNat * 8192 + y.toNat * 16 + x.toNat * 2 + Sys2Proof.Bool.bit w < 2 ^ 32; omega
theorem acld (d : BitVec 6) (a : BitVec 6) (b : BitVec 6) (s : BitVec 3) (w : Bool) : Statement (.acld d a b s w) := by
  have := d.isLt; have := a.isLt; have := b.isLt; have := s.isLt; have := bit_le w; show 2818572288 + d.toNat * 524288 + a.toNat * 8192 + b.toNat * 128 + s.toNat * 4 + Sys2Proof.Bool.bit w < 2 ^ 32; omega
theorem acst (d : BitVec 6) (a : BitVec 6) (b : BitVec 6) (s : BitVec 3) (w : Bool) : Statement (.acst d a b s w) := by
  have := d.isLt; have := a.isLt; have := b.isLt; have := s.isLt; have := bit_le w; show 2818572290 + d.toNat * 524288 + a.toNat * 8192 + b.toNat * 128 + s.toNat * 4 + Sys2Proof.Bool.bit w < 2 ^ 32; omega
theorem mmwait (d : BitVec 6) (a : BitVec 6) (w : Bool) : Statement (.mmwait d a w) := by
  have := d.isLt; have := a.isLt; have := bit_le w; show 2852126720 + d.toNat * 524288 + a.toNat * 8192 + Sys2Proof.Bool.bit w < 2 ^ 32; omega
theorem tspawn (a : BitVec 6) (w : Bool) : Statement (.tspawn a w) := by
  have := a.isLt; have := bit_le w; show 2885681152 + a.toNat * 8192 + Sys2Proof.Bool.bit w < 2 ^ 32; omega
theorem qpush (q : BitVec 4) (a : BitVec 6) (b : BitVec 6) (c : BitVec 3) (w : Bool) : Statement (.qpush q a b c w) := by
  have := q.isLt; have := a.isLt; have := b.isLt; have := c.isLt; have := bit_le w; show 2919235584 + q.toNat * 524288 + a.toNat * 8192 + b.toNat * 128 + c.toNat * 2 + Sys2Proof.Bool.bit w < 2 ^ 32; omega
theorem qpop (d : BitVec 6) (a : BitVec 6) (w : Bool) : Statement (.qpop d a w) := by
  have := d.isLt; have := a.isLt; have := bit_le w; show 2952790016 + d.toNat * 524288 + a.toNat * 8192 + Sys2Proof.Bool.bit w < 2 ^ 32; omega
theorem qtry (d : BitVec 6) (a : BitVec 6) (q : BitVec 4) (w : Bool) : Statement (.qtry d a q w) := by
  have := d.isLt; have := a.isLt; have := q.isLt; have := bit_le w; show 2986344448 + d.toNat * 524288 + a.toNat * 8192 + q.toNat * 128 + Sys2Proof.Bool.bit w < 2 ^ 32; omega
theorem vgive (n : BitVec 6) (w : Bool) : Statement (.vgive n w) := by
  have := n.isLt; have := bit_le w; show 3019898880 + n.toNat * 2 + Sys2Proof.Bool.bit w < 2 ^ 32; omega
theorem vclaim (n : BitVec 6) (w : Bool) : Statement (.vclaim n w) := by
  have := n.isLt; have := bit_le w; show 3053453312 + n.toNat * 2 + Sys2Proof.Bool.bit w < 2 ^ 32; omega
theorem bowchk (d : BitVec 6) (a : BitVec 6) (b : BitVec 6) (w : Bool) : Statement (.bowchk d a b w) := by
  have := d.isLt; have := a.isLt; have := b.isLt; have := bit_le w; show 3087007744 + d.toNat * 524288 + a.toNat * 8192 + b.toNat * 128 + Sys2Proof.Bool.bit w < 2 ^ 32; omega
theorem bowset (a : BitVec 6) (b : BitVec 6) (w : Bool) : Statement (.bowset a b w) := by
  have := a.isLt; have := b.isLt; have := bit_le w; show 3120562176 + a.toNat * 8192 + b.toNat * 128 + Sys2Proof.Bool.bit w < 2 ^ 32; omega
theorem bowpass (w : Bool) : Statement (.bowpass w) := by
  have := bit_le w; show 3154116608 + Sys2Proof.Bool.bit w < 2 ^ 32; omega
theorem bowidle (a : BitVec 6) (b : BitVec 6) (w : Bool) : Statement (.bowidle a b w) := by
  have := a.isLt; have := b.isLt; have := bit_le w; show 3187671040 + a.toNat * 8192 + b.toNat * 128 + Sys2Proof.Bool.bit w < 2 ^ 32; omega
theorem bowwake (a : BitVec 6) (b : BitVec 6) (w : Bool) : Statement (.bowwake a b w) := by
  have := a.isLt; have := b.isLt; have := bit_le w; show 3187671042 + a.toNat * 8192 + b.toNat * 128 + Sys2Proof.Bool.bit w < 2 ^ 32; omega
theorem rtopen (d : BitVec 6) (a : BitVec 6) (q : BitVec 4) (c : Bool) (w : Bool) : Statement (.rtopen d a q c w) := by
  have := d.isLt; have := a.isLt; have := q.isLt; have := bit_le c; have := bit_le w; show 3221225472 + d.toNat * 524288 + a.toNat * 8192 + q.toNat * 128 + Sys2Proof.Bool.bit c * 2 + Sys2Proof.Bool.bit w < 2 ^ 32; omega
theorem fseal (a : BitVec 6) (b : BitVec 6) (w : Bool) : Statement (.fseal a b w) := by
  have := a.isLt; have := b.isLt; have := bit_le w; show 3254779904 + a.toNat * 8192 + b.toNat * 128 + Sys2Proof.Bool.bit w < 2 ^ 32; omega
theorem rtsync (a : BitVec 6) (b : BitVec 6) (w : Bool) : Statement (.rtsync a b w) := by
  have := a.isLt; have := b.isLt; have := bit_le w; show 3288334336 + a.toNat * 8192 + b.toNat * 128 + Sys2Proof.Bool.bit w < 2 ^ 32; omega
theorem rtrel (a : BitVec 6) (s : BitVec 3) (w : Bool) : Statement (.rtrel a s w) := by
  have := a.isLt; have := s.isLt; have := bit_le w; show 3321888768 + a.toNat * 8192 + s.toNat * 2 + Sys2Proof.Bool.bit w < 2 ^ 32; omega
theorem rtclose (d : BitVec 6) (a : BitVec 6) (w : Bool) : Statement (.rtclose d a w) := by
  have := d.isLt; have := a.isLt; have := bit_le w; show 3355443200 + d.toNat * 524288 + a.toNat * 8192 + Sys2Proof.Bool.bit w < 2 ^ 32; omega
theorem nred (a : BitVec 6) (b : BitVec 6) (o : BitVec 3) (w : Bool) : Statement (.nred a b o w) := by
  have := a.isLt; have := b.isLt; have := o.isLt; have := bit_le w; show 3388997632 + a.toNat * 8192 + b.toNat * 128 + o.toNat * 2 + Sys2Proof.Bool.bit w < 2 ^ 32; omega
theorem nrwait (d : BitVec 6) (a : BitVec 6) (q : BitVec 4) (w : Bool) : Statement (.nrwait d a q w) := by
  have := d.isLt; have := a.isLt; have := q.isLt; have := bit_le w; show 3422552064 + d.toNat * 524288 + a.toNat * 8192 + q.toNat * 128 + Sys2Proof.Bool.bit w < 2 ^ 32; omega
theorem yield : Statement (.yield) := by
  show 3456106496 < 2 ^ 32; omega
theorem trap (c : BitVec 16) : Statement (.trap c) := by
  have := c.isLt; show 3489660928 + c.toNat * 512 < 2 ^ 32; omega
theorem eret : Statement (.eret) := by
  show 3523215360 < 2 ^ 32; omega
theorem halt : Statement (.halt) := by
  show 3556769792 < 2 ^ 32; omega
theorem tlbiVa (a : BitVec 6) (b : BitVec 6) (w : Bool) : Statement (.tlbiVa a b w) := by
  have := a.isLt; have := b.isLt; have := bit_le w; show 3590324224 + a.toNat * 8192 + b.toNat * 128 + Sys2Proof.Bool.bit w < 2 ^ 32; omega
theorem tlbiAsid (b : BitVec 6) (w : Bool) : Statement (.tlbiAsid b w) := by
  have := b.isLt; have := bit_le w; show 3590324226 + b.toNat * 128 + Sys2Proof.Bool.bit w < 2 ^ 32; omega
theorem tlbiVf (b : BitVec 6) (w : Bool) : Statement (.tlbiVf b w) := by
  have := b.isLt; have := bit_le w; show 3590324228 + b.toNat * 128 + Sys2Proof.Bool.bit w < 2 ^ 32; omega
theorem tlbiIpa (a : BitVec 6) (b : BitVec 6) (w : Bool) : Statement (.tlbiIpa a b w) := by
  have := a.isLt; have := b.isLt; have := bit_le w; show 3590324230 + a.toNat * 8192 + b.toNat * 128 + Sys2Proof.Bool.bit w < 2 ^ 32; omega
theorem tlbiS2 (b : BitVec 6) (w : Bool) : Statement (.tlbiS2 b w) := by
  have := b.isLt; have := bit_le w; show 3590324232 + b.toNat * 128 + Sys2Proof.Bool.bit w < 2 ^ 32; omega
theorem gexit : Statement (.gexit) := by
  show 3623878656 < 2 ^ 32; omega
theorem writeSrTkill (v : DWord) : Statement (.writeSrTkill v) := show 0 < 2 ^ 32 by decide
theorem writeSrArith (v : DWord) : Statement (.writeSrArith v) := show 0 < 2 ^ 32 by decide
theorem writeSrWdog (v : DWord) : Statement (.writeSrWdog v) := show 0 < 2 ^ 32 by decide
theorem writeSrClock (v : DWord) : Statement (.writeSrClock v) := show 0 < 2 ^ 32 by decide
theorem writeSrTfsel (v : DWord) : Statement (.writeSrTfsel v) := show 0 < 2 ^ 32 by decide
theorem writeSrMevent (v : DWord) : Statement (.writeSrMevent v) := show 0 < 2 ^ 32 by decide
theorem fill (gid : Nat) (idx : Nat) (ext : List Byte) : Statement (.fill gid idx ext) := show 0 < 2 ^ 32 by decide
theorem deferredTrap (gid : Nat) : Statement (.deferredTrap gid) := show 0 < 2 ^ 32 by decide
theorem barrierTimeout (gid : Nat) (ent : Nat) : Statement (.barrierTimeout gid ent) := show 0 < 2 ^ 32 by decide
theorem tagTimeout (gid : Nat) (ent : Nat) : Statement (.tagTimeout gid ent) := show 0 < 2 ^ 32 by decide
theorem rtsyncTimeout (gid : Nat) (ent : Nat) : Statement (.rtsyncTimeout gid ent) := show 0 < 2 ^ 32 by decide
theorem vclaimTimeout (gid : Nat) (ent : Nat) : Statement (.vclaimTimeout gid ent) := show 0 < 2 ^ 32 by decide
theorem linkTimeout (gid : Nat) (seq : Nat) : Statement (.linkTimeout gid seq) := show 0 < 2 ^ 32 by decide
theorem entryDue (gid : Nat) (ent : Nat) : Statement (.entryDue gid ent) := show 0 < 2 ^ 32 by decide
theorem yieldMarkClear (gid : Nat) (ent : Nat) : Statement (.yieldMarkClear gid ent) := show 0 < 2 ^ 32 by decide
theorem storeDrain (gid : Nat) : Statement (.storeDrain gid) := show 0 < 2 ^ 32 by decide
theorem barrierArrival (gid : Nat) : Statement (.barrierArrival gid) := show 0 < 2 ^ 32 by decide
theorem copyPerformed (core : Nat) (idx : Nat) : Statement (.copyPerformed core idx) := show 0 < 2 ^ 32 by decide
theorem leaveGrant (cluster : Nat) : Statement (.leaveGrant cluster) := show 0 < 2 ^ 32 by decide
theorem engineTileTurn (gid : Nat) : Statement (.engineTileTurn gid) := show 0 < 2 ^ 32 by decide
theorem engineComplete (gid : Nat) : Statement (.engineComplete gid) := show 0 < 2 ^ 32 by decide
theorem fsealAccept (gid : Nat) : Statement (.fsealAccept gid) := show 0 < 2 ^ 32 by decide
theorem frontierView (stream : Nat) (unit : Nat) : Statement (.frontierView stream unit) := show 0 < 2 ^ 32 by decide
theorem fragmentArrival (stream : Nat) (idx : Nat) : Statement (.fragmentArrival stream idx) := show 0 < 2 ^ 32 by decide
theorem nredContribution (gid : Nat) : Statement (.nredContribution gid) := show 0 < 2 ^ 32 by decide
theorem launchAccept (vf : Nat) : Statement (.launchAccept vf) := show 0 < 2 ^ 32 by decide
theorem launchPlace (vf : Nat) (places : List Nat) : Statement (.launchPlace vf places) := show 0 < 2 ^ 32 by decide
theorem staggerStart (crew : Nat) : Statement (.staggerStart crew) := show 0 < 2 ^ 32 by decide
theorem taskStart (core : Nat) : Statement (.taskStart core) := show 0 < 2 ^ 32 by decide
theorem taskStealable (core : Nat) (idx : Nat) : Statement (.taskStealable core idx) := show 0 < 2 ^ 32 by decide
theorem taskSteal (core : Nat) : Statement (.taskSteal core) := show 0 < 2 ^ 32 by decide
theorem copyTaskComplete (core : Nat) (idx : Nat) : Statement (.copyTaskComplete core idx) := show 0 < 2 ^ 32 by decide
theorem heatDispatch (rset : Nat) : Statement (.heatDispatch rset) := show 0 < 2 ^ 32 by decide
theorem heatEnd (rset : Nat) (task : Nat) : Statement (.heatEnd rset task) := show 0 < 2 ^ 32 by decide
theorem pageRequest (vf : Nat) : Statement (.pageRequest vf) := show 0 < 2 ^ 32 by decide
theorem replyDoorbell (vf : Nat) : Statement (.replyDoorbell vf) := show 0 < 2 ^ 32 by decide
theorem completionTimeout (id : Nat) : Statement (.completionTimeout id) := show 0 < 2 ^ 32 by decide
theorem linkDown (port : Nat) : Statement (.linkDown port) := show 0 < 2 ^ 32 by decide
theorem linkUp (port : Nat) : Statement (.linkUp port) := show 0 < 2 ^ 32 by decide
theorem linkLostTimeout (port : Nat) : Statement (.linkLostTimeout port) := show 0 < 2 ^ 32 by decide
theorem inboundFabricRequest (endpt : Nat) (srcVf : Nat) (vf : Nat) (kind : Nat) (addr : DWord) (data : List Byte) : Statement (.inboundFabricRequest endpt srcVf vf kind addr data) := show 0 < 2 ^ 32 by decide
theorem redirect (vf : Nat) (window : Nat) (endpt : Nat) : Statement (.redirect vf window endpt) := show 0 < 2 ^ 32 by decide
theorem qcreate (vf : Nat) (ctx : Nat) (launch : Bool) (k : Nat) : Statement (.qcreate vf ctx launch k) := show 0 < 2 ^ 32 by decide
theorem qsubmit (vf : Nat) (ctx : Nat) (handle : DWord) (cls : Nat) (v : DWord) : Statement (.qsubmit vf ctx handle cls v) := show 0 < 2 ^ 32 by decide
theorem qdestroy (vf : Nat) (ctx : Nat) (handle : DWord) : Statement (.qdestroy vf ctx handle) := show 0 < 2 ^ 32 by decide
theorem createContext (vf : Nat) (rec : DWord) : Statement (.createContext vf rec) := show 0 < 2 ^ 32 by decide
theorem attestationReport (vf : Nat) (nonce : List Byte) : Statement (.attestationReport vf nonce) := show 0 < 2 ^ 32 by decide
theorem setSlices (vf : Nat) (slices : Word) : Statement (.setSlices vf slices) := show 0 < 2 ^ 32 by decide
theorem setHpol (vf : Nat) (hpol : DWord) : Statement (.setHpol vf hpol) := show 0 < 2 ^ 32 by decide
theorem setCtxmax (vf : Nat) (n : Nat) : Statement (.setCtxmax vf n) := show 0 < 2 ^ 32 by decide
theorem setBudget (vf : Nat) (cluster : Nat) (n : Nat) : Statement (.setBudget vf cluster n) := show 0 < 2 ^ 32 by decide
theorem assignRegion (region : Nat) (owner : Option Nat) (save : Bool) : Statement (.assignRegion region owner save) := show 0 < 2 ^ 32 by decide
theorem setS2root (vf : Nat) (root : DWord) : Statement (.setS2root vf root) := show 0 < 2 ^ 32 by decide
theorem setPageRequestRing (vf : Nat) (base : DWord) (len : Nat) : Statement (.setPageRequestRing vf base len) := show 0 < 2 ^ 32 by decide
theorem setReplyRing (vf : Nat) (base : DWord) (len : Nat) : Statement (.setReplyRing vf base len) := show 0 < 2 ^ 32 by decide
theorem setPeers (vf : Nat) (peers : List (Nat × Nat)) : Statement (.setPeers vf peers) := show 0 < 2 ^ 32 by decide
theorem setWindow (vf : Nat) (window : Nat) (rbase : DWord) (limit : DWord) (endpt : Nat) (rvf : Nat) (asid : Nat) (flags : BitVec 8) : Statement (.setWindow vf window rbase limit endpt rvf asid flags) := show 0 < 2 ^ 32 by decide
theorem setEventQueue (base : DWord) (len : Nat) : Statement (.setEventQueue base len) := show 0 < 2 ^ 32 by decide
theorem invalidate (kind : Nat) (ga : DWord) (gb : DWord) : Statement (.invalidate kind ga gb) := show 0 < 2 ^ 32 by decide
theorem powercap (watts : Nat) : Statement (.powercap watts) := show 0 < 2 ^ 32 by decide
theorem preempt (vf : Nat) (ctx : Nat) (reason : Nat) : Statement (.preempt vf ctx reason) := show 0 < 2 ^ 32 by decide
theorem resume (vf : Nat) (ctx : Nat) : Statement (.resume vf ctx) := show 0 < 2 ^ 32 by decide
theorem saveRetry (vf : Nat) : Statement (.saveRetry vf) := show 0 < 2 ^ 32 by decide
theorem kill (vf : Nat) (ctx : Nat) : Statement (.kill vf ctx) := show 0 < 2 ^ 32 by decide
theorem migPrepare (vf : Nat) (dies : List Nat) (links : List (Nat × Nat × Nat)) : Statement (.migPrepare vf dies links) := show 0 < 2 ^ 32 by decide
theorem migStart (vf : Nat) (endpt : Nat) (target : Nat) (answers : Bool) : Statement (.migStart vf endpt target answers) := show 0 < 2 ^ 32 by decide
theorem bundleResume (vf : Nat) : Statement (.bundleResume vf) := show 0 < 2 ^ 32 by decide
theorem pagePull (vf : Nat) (ipa : Nat) : Statement (.pagePull vf ipa) := show 0 < 2 ^ 32 by decide
theorem pageTransfer (vf : Nat) (ipa : Nat) (data : List Byte) : Statement (.pageTransfer vf ipa data) := show 0 < 2 ^ 32 by decide
theorem pageAck (vf : Nat) (ipa : Nat) : Statement (.pageAck vf ipa) := show 0 < 2 ^ 32 by decide
theorem backgroundPush (vf : Nat) : Statement (.backgroundPush vf) := show 0 < 2 ^ 32 by decide
theorem migEnd (vf : Nat) : Statement (.migEnd vf) := show 0 < 2 ^ 32 by decide
theorem thermalFreeze (stack : Nat) : Statement (.thermalFreeze stack) := show 0 < 2 ^ 32 by decide
theorem thermalResume (cycles : Nat) : Statement (.thermalResume cycles) := show 0 < 2 ^ 32 by decide
theorem budgetWindow : Statement (.budgetWindow) := show 0 < 2 ^ 32 by decide
theorem rowThresholdCrossing (slice : Nat) (vf : Nat) (row : Nat) : Statement (.rowThresholdCrossing slice vf row) := show 0 < 2 ^ 32 by decide
theorem activationCountRestart (slice : Nat) (row : Nat) : Statement (.activationCountRestart slice row) := show 0 < 2 ^ 32 by decide
theorem routerPowerDown (router : Nat) : Statement (.routerPowerDown router) := show 0 < 2 ^ 32 by decide
theorem routerWake (router : Nat) : Statement (.routerWake router) := show 0 < 2 ^ 32 by decide
theorem ringRetry (ring : Nat) (owner : Nat) : Statement (.ringRetry ring owner) := show 0 < 2 ^ 32 by decide
theorem scrub (array : Nat) (row : Nat) : Statement (.scrub array row) := show 0 < 2 ^ 32 by decide
theorem bankFailed (array : Nat) (bank : Nat) : Statement (.bankFailed array bank) := show 0 < 2 ^ 32 by decide
theorem rebuildDone (array : Nat) : Statement (.rebuildDone array) := show 0 < 2 ^ 32 by decide
theorem linkReplay (link : Nat) (ok : Bool) : Statement (.linkReplay link ok) := show 0 < 2 ^ 32 by decide
theorem laneRepair (link : Nat) (lane : Nat) : Statement (.laneRepair link lane) := show 0 < 2 ^ 32 by decide
theorem linkRetrain (link : Nat) : Statement (.linkRetrain link) := show 0 < 2 ^ 32 by decide
theorem retrainComplete (link : Nat) (ok : Bool) : Statement (.retrainComplete link ok) := show 0 < 2 ^ 32 by decide
theorem managementEvent (die : Nat) (bit : Nat) : Statement (.managementEvent die bit) := show 0 < 2 ^ 32 by decide
theorem powerOnBoot : Statement (.powerOnBoot) := show 0 < 2 ^ 32 by decide
theorem recoveryImage (magic : Word) (version : Nat) (rsaGood : Bool) (slhGood : Bool) : Statement (.recoveryImage magic version rsaGood slhGood) := show 0 < 2 ^ 32 by decide
theorem clusterRetiredInService (cluster : Nat) : Statement (.clusterRetiredInService cluster) := show 0 < 2 ^ 32 by decide
theorem managementCoreFailure (die : Nat) : Statement (.managementCoreFailure die) := show 0 < 2 ^ 32 by decide
theorem fabricBusy (id : Nat) : Statement (.fabricBusy id) := show 0 < 2 ^ 32 by decide
theorem remoteRefusal (id : Nat) : Statement (.remoteRefusal id) := show 0 < 2 ^ 32 by decide
theorem linkReplayComplete (link : Nat) : Statement (.linkReplayComplete link) := show 0 < 2 ^ 32 by decide

end Sys2Proof.Laws.WordFits
end

