-- ==== Sys2Proof/Tests/Slice0.lean ====
section
/-! SUPPORT. Sys2Proof/Tests/Slice0.lean: tests. The smoke tests of WellFormed, the words the spec writes out, a witness for the
hypotheses of every statement that has them (`test_hyp_…`: from the statement follows that a named instruction completes on a
named state, so every hypothesis is met there), and single steps whose results the spec gives. -/
namespace Sys2Proof.Tests
set_option Elab.async false
open Sys2Proof.Machine Sys2Proof.Claims

/-! ### Small states -/

/-- An entry of one lane. -/
def entry1 : Entry := { pc := 0x1000, mask := 1 }

/-- A group of sixteen blocks at level S whose G registers hold the start of the group's scratchpad window (R187). -/
def group1 : Group := { blocks := 16, priv := .s, entries := [entry1], g := Vector.replicate 64 0x7FF00000000000 }

/-- A machine in which entry 0 of group 0 acts. -/
def state1 (g : Group) : State :=
  { cur := .group 0 0, groups := [(0, g)], crews := [(0, { groups := [0], params := wordParams })]
    contexts := [(0, { s1root := 0x40010000, asid := 1 })], vfs := [(0, { slices := 1, s2root := 0x10000, regions := [1] })] }

theorem acts1 (g : Group) (e : Entry) (h : g.entries[0]? = some e) : Acts (state1 g) 0 0 g e := ⟨rfl, rfl, h⟩

/-- Lane 0 is the one lane of the bundle. -/
theorem lane0 {P : Fin 128 → Prop} (h : P 0) : ∀ l : Fin 128, (1 : Mask).getLsbD l.val = true → P l := by
  intro l hl
  have : l = 0 := by revert l; decide +kernel
  subst this; exact h

/-- Every register of the group is full. -/
theorem vready1 (g : Group) (hb : g.blocks = 16) (hv : g.ve = Vector.replicate 128 0) (m : Mask) (rs : List Nat)
    (h : ∀ r ∈ rs, r < 128) : VReady g m rs := by
  intro r hr
  have := h r hr
  refine ⟨by omega, this, ?_⟩
  simp [Group.vEmpty, hv, vecGet, this]

theorem gready1 (g : Group) (hg : g.ge = 0) (rs : List Nat) : GReady g rs := by
  intro r _; simp [Group.gEmpty, hg]

theorem qready1 (g : Group) (hq : g.qe = 0) (rs : List Nat) : QReady g rs := by
  intro r _; simp [Group.qEmpty, hq]

theorem pready1 (g : Group) (hp : g.pe = Vector.replicate 48 0) (m : Mask) (rs : List Nat) (h : ∀ r ∈ rs, r < 48) :
    PReady g m rs := by
  intro r hr
  have := h r hr
  exact ⟨this, by simp [Group.pEmpty, hp, vecGet, this]⟩

/-! ### The hypotheses of the statements can be met -/

theorem test_hyp_LaneIntegerArithmetic :
    Acts (state1 group1) 0 0 group1 entry1 ∧ VReady group1 entry1.mask [127, 0, 5] ∧ (0x02000000#32).toNat / 2 ^ 25 = 1 :=
  ⟨acts1 _ _ rfl, vready1 _ rfl rfl _ _ (by decide), by decide⟩

theorem test_hyp_LaneLogicAndShifts :
    Acts (state1 group1) 0 0 group1 entry1 ∧ VReady group1 entry1.mask [0, 127, 127] :=
  ⟨acts1 _ _ rfl, vready1 _ rfl rfl _ _ (by decide)⟩

theorem test_hyp_LaneBitFields :
    Acts (state1 group1) 0 0 group1 entry1 ∧ VReady group1 entry1.mask [127, 126, 0] :=
  ⟨acts1 _ _ rfl, vready1 _ rfl rfl _ _ (by decide)⟩

theorem test_hyp_LaneMoves :
    Acts (state1 group1) 0 0 group1 entry1 ∧ VReady group1 entry1.mask [126, 127, 0, 1] ∧ PReady group1 entry1.mask [47] ∧
      GReady group1 [63] ∧ (state1 group1).readSr group1 entry1 0x001 = some 0 :=
  ⟨acts1 _ _ rfl, vready1 _ rfl rfl _ _ (by decide), pready1 _ rfl _ _ (by decide), gready1 _ rfl _, by decide +kernel⟩

theorem test_hyp_LanePredicates :
    Acts (state1 group1) 0 0 group1 entry1 ∧ VReady group1 entry1.mask [126, 127, 0, 1] ∧ PReady group1 entry1.mask [47, 0, 1] :=
  ⟨acts1 _ _ rfl, vready1 _ rfl rfl _ _ (by decide), pready1 _ rfl _ _ (by decide)⟩

theorem test_hyp_LaneFloatArithmetic :
    Acts (state1 group1) 0 0 group1 entry1 ∧ VReady group1 entry1.mask [0, 1, 126, 124, 127, 125] :=
  ⟨acts1 _ _ rfl, vready1 _ rfl rfl _ _ (by decide)⟩

theorem test_hyp_LaneSpecialAndConvert :
    Acts (state1 group1) 0 0 group1 entry1 ∧ VReady group1 entry1.mask (cvtRegs 7 126 ++ cvtRegs 0 127) :=
  ⟨acts1 _ _ rfl, vready1 _ rfl rfl _ _ (by decide)⟩

/-- A group whose whole bundle acts, in a crew whose format slots 0 and 1 hold E4M3 and a MERE format. -/
def groupAll : Group := { group1 with entries := [{ pc := 0x1000, mask := allLanes }] }
def stateSlots : State :=
  { state1 groupAll with crews := [(0, { groups := [0], params := { wordParams with slots := [3, 6] } })] }

theorem test_hyp_LanePacking :
    Acts stateSlots 0 0 groupAll { pc := 0x1000, mask := allLanes } ∧ packable (stateSlots.slotOf groupAll 0) = true ∧
      (slotMere (stateSlots.slotOf groupAll 1)).isSome = true ∧
      (∀ k, slotMere (stateSlots.slotOf groupAll 1) = some k → partBlock k allLanes = false) ∧
      VReady groupAll allLanes (127 :: 126 :: (List.range 8).map (112 + ·)) := by
  refine ⟨⟨rfl, rfl, rfl⟩, by decide +kernel, by decide +kernel, ?_, vready1 _ rfl rfl _ _ (by decide)⟩
  intro k hk
  have : k = (slotMere (stateSlots.slotOf groupAll 1)).getD 0 := by rw [hk]; rfl
  subst this; decide +kernel

theorem test_hyp_LaneCrossForms :
    Acts (state1 group1) 0 0 group1 entry1 ∧ VReady group1 entry1.mask [124, 125, 126, 127] ∧ PReady group1 entry1.mask [47] :=
  ⟨acts1 _ _ rfl, vready1 _ rfl rfl _ _ (by decide), pready1 _ rfl _ _ (by decide)⟩

theorem test_hyp_UniformArithmetic :
    Acts (state1 group1) 0 0 group1 entry1 ∧ GReady group1 [63, 0, 1] := ⟨acts1 _ _ rfl, gready1 _ rfl _⟩

theorem test_hyp_UniformPredicates :
    Acts (state1 group1) 0 0 group1 entry1 ∧ GReady group1 [63, 0] ∧ QReady group1 [15, 0, 1] :=
  ⟨acts1 _ _ rfl, gready1 _ rfl _, qready1 _ rfl _⟩

theorem test_hyp_UniformReads :
    Acts (state1 group1) 0 0 group1 entry1 ∧ GReady group1 [63, 0] ∧ (state1 group1).readSr group1 entry1 0x008 = some 1 ∧
      ((state1 group1).readSr group1 entry1 0x021 = some 0 ∧ group1.lanesBusy = false) ∧
      (127 : BitVec 7).toNat < 8 * group1.blocks ∧
      (0 : Fin 128).val = (if (group1.gAt 0).getLsbD 7 then lowestLane entry1.mask else (group1.gAt 0).toNat % 128) ∧
      group1.vEmpty 127 (laneBit 0) = false :=
  ⟨acts1 _ _ rfl, gready1 _ rfl _, by decide +kernel, by decide +kernel, by decide, by decide +kernel, by decide +kernel⟩

/-- Lanes 0 and 1, of which P1 holds in lane 0 alone, and which have a return record each. -/
def group2 : Group :=
  { group1 with entries := [{ pc := 0x1000, mask := 3 }], p := (Vector.replicate 48 0).set 1 1
                ret := Vector.replicate 128 [(0x2000, 3)] }

theorem test_hyp_BranchesSendLanes :
    Acts (state1 group2) 0 0 group2 { pc := 0x1000, mask := 3 } ∧ PReady group2 3 [1] ∧
      takes group2 { pc := 0x1000, mask := 3 } 1 false 0 ∧ (3 : Mask).getLsbD (1 : Fin 128).val = true ∧
      ¬ takes group2 { pc := 0x1000, mask := 3 } 1 false 1 ∧ (∀ l : Fin 128, group2.ret[l].length < 16) :=
  ⟨⟨rfl, rfl, rfl⟩, pready1 _ rfl _ _ (by decide), by unfold takes; decide +kernel, by decide, by unfold takes; decide +kernel,
    by decide +kernel⟩

theorem test_hyp_ReturnsAndComputedBranches :
    Acts (state1 group2) 0 0 group2 { pc := 0x1000, mask := 3 } ∧ (∀ l : Fin 128, group2.ret[l] ≠ []) ∧
      VReady group2 3 [126, 127] ∧ (∀ l : Fin 128, pairOf group2 126 l % 4 = 0) ∧ QReady group2 [15] :=
  ⟨⟨rfl, rfl, rfl⟩, by decide +kernel, vready1 _ rfl rfl _ _ (by decide), by decide +kernel, qready1 _ rfl _⟩

/-- A group of two entries, and a firing's crew. -/
def group3 : Group := { group1 with entries := [entry1, { pc := 0x2000, mask := 2 }] }
def stateFiring : State :=
  { state1 group1 with crews := [(0, { groups := [0], origin := .firing 7 0x40, params := wordParams })] }

theorem test_hyp_ExitsEndEntriesAndGroups :
    (Acts (state1 group3) 0 0 group3 entry1 ∧ group3.finalExit = false ∧ 1 < group3.entries.length) ∧
      (Acts stateFiring 0 0 group1 entry1 ∧ group1.fifo = [] ∧ group1.engq = [] ∧ group1.posts = [] ∧ group1.batchFails = [] ∧
        group1.logOrder = [] ∧ group1.oplog.all (·.isNone) = true ∧ (∀ c ∈ (stateFiring.core group1.core).copies, c.2.gid ≠ 0) ∧
        stateFiring.farStores 0 group1 = false ∧ (∀ x ∈ group1.entries.eraseIdx 0 ++ group1.saved, x.wait = none) ∧
        group1.entries.length = 1 ∧ (stateFiring.crew group1.crew).origin = .firing 7 0x40) :=
  ⟨⟨⟨rfl, rfl, rfl⟩, rfl, by decide⟩, ⟨rfl, rfl, rfl⟩, rfl, rfl, rfl, rfl, rfl, by decide +kernel, by decide +kernel, by decide +kernel,
      by decide +kernel, rfl, rfl⟩

theorem test_hyp_PrefixesYieldAndNop :
    Acts (state1 group1) 0 0 group1 entry1 ∧ entry1.pre.words = 0 ∧ entry1.pre.lit = none := ⟨acts1 _ _ rfl, rfl, rfl⟩

theorem test_hyp_TrapTakesTheSoftwareTrap :
    Acts (state1 group1) 0 0 group1 entry1 ∧ group1.tinfo.getLsbD 3 = false ∧
      ((state1 group1).crew group1.crew).params.handler ≠ 0 := ⟨acts1 _ _ rfl, by decide, by decide +kernel⟩

/-- A group in its handler, whose one saved entry has one lane to resume. -/
def groupHandler : Group := { group1 with tinfo := 8, tpc := 0x1000, tlanes := 1, saved := [{ pc := 0x1000, mask := 1 }] }

theorem test_hyp_TrapsWithoutHandlerKillTheContext :
    Acts (state1 groupHandler) 0 0 groupHandler entry1 ∧ (KeyMap.find (state1 groupHandler).contexts groupHandler.ctx).isSome = true ∧
      groupHandler.tinfo.getLsbD 3 = true := ⟨acts1 _ _ rfl, by decide +kernel, by decide⟩

theorem test_hyp_EretReturnsFromATrap :
    Acts (state1 groupHandler) 0 0 groupHandler entry1 ∧ groupHandler.priv ≠ .l ∧ groupHandler.tinfo.getLsbD 3 = true ∧
      groupHandler.tinfo.getLsbD 2 = false ∧ groupHandler.tpc.toNat % 4 = 0 ∧
      (∃ x ∈ groupHandler.saved.head?, x.mask &&& groupHandler.tlanes ≠ 0) :=
  ⟨acts1 _ _ rfl, by decide, by decide, by decide, by decide, ⟨{ pc := 0x1000, mask := 1 }, rfl, by decide⟩⟩

/-- Groups at the other two levels. -/
def groupH : Group := { group1 with priv := .h }
def groupL : Group := { group1 with priv := .l }

theorem test_hyp_HaltAndPrivilegedWords :
    (Acts (state1 groupH) 0 0 groupH entry1 ∧ groupH.priv = .h) ∧ (Acts (state1 groupL) 0 0 groupL entry1 ∧ groupL.priv = .l ∧
      groupL.priv ≠ .h) := ⟨⟨acts1 _ _ rfl, rfl⟩, acts1 _ _ rfl, rfl, by decide⟩

theorem test_hyp_SpecialRegisterWrites :
    (Acts (state1 groupH) 0 0 groupH entry1 ∧ GReady groupH [63] ∧ groupH.priv = .h ∧
      64 * (32 : BitVec 6).toNat + (0 : BitVec 6).toNat = 0x800) ∧
    (Acts (state1 group1) 0 0 group1 entry1 ∧ group1.priv ≠ .l ∧ srWritable 0x000 group1.priv = false ∧
      64 * (0 : BitVec 6).toNat + (35 : BitVec 6).toNat = 0x023 ∧ (KeyMap.find (state1 group1).contexts group1.ctx).isSome = true) :=
  ⟨⟨acts1 _ _ rfl, gready1 _ rfl _, rfl, by decide⟩, acts1 _ _ rfl, by decide, by decide, by decide, by decide +kernel⟩

/-- Every lane of `entry1` names the first word of the scratchpad. -/
def placeS : Fin 128 → Loc := fun _ => .scratch 0 0

theorem placed1 (k : Acc) (n : Nat) (h : (state1 group1).laneEnd group1 0 0x7FF00000000000 n k = .loc (.scratch 0 0) none)
    (addr : Fin 128 → DWord) (ha : (addr 0).toNat = 0x7FF00000000000) :
    LanesPlaced (state1 group1) group1 entry1.mask addr n k placeS :=
  lane0 (P := fun l => ∃ t, (state1 group1).laneEnd group1 l.val (addr l).toNat n k = .loc (placeS l) t) ⟨none, by rw [ha]; exact h⟩

theorem linesGood1 : LinesGood (state1 group1) entry1.mask placeS := by intro l _ pa h; simp [placeS] at h

theorem test_hyp_LoadsComplete :
    Acts (state1 group1) 0 0 group1 entry1 ∧ group1.fencing = false ∧ (state1 group1).mayLog group1 entry1 = true ∧
      VReady group1 entry1.mask (0 :: sizeRegs 4 124) ∧ GReady group1 [31] ∧
      LanesPlaced (state1 group1) group1 entry1.mask (laneAddr group1 31 0) (sizeBytes 4) .load placeS ∧
      LinesGood (state1 group1) entry1.mask placeS ∧
      (∀ l : Fin 128, entry1.mask.getLsbD l.val = true → group1.forward (placeS l) (sizeBytes 4) ≠ .wait) :=
  ⟨acts1 _ _ rfl, by decide +kernel, by decide +kernel, vready1 _ rfl rfl _ _ (by decide), gready1 _ rfl _,
    placed1 _ _ (by decide +kernel) _ (by decide +kernel), linesGood1, lane0 (by decide +kernel)⟩

theorem test_hyp_LoadsBringTheirBytes :
    group1.fifo = [] ∧ group1.exits = [] ∧ ((state1 group1).core group1.core).l1 = [] ∧ entry1.mask ≠ 0 ∧
      (∀ l : Fin 128, entry1.mask.getLsbD l.val = true → ∀ pa, placeS l = .phys pa → (state1 group1).farPort pa = none) ∧
      (∀ l : Fin 128, entry1.mask.getLsbD l.val = true → ∀ v n o, placeS l ≠ .fabric v n o) :=
  ⟨rfl, rfl, rfl, by decide, by intro l _ pa h; simp [placeS] at h, by intro l _ v n o h; simp [placeS] at h⟩

theorem test_hyp_StoresEnterTheFifo :
    Acts (state1 group1) 0 0 group1 entry1 ∧ group1.fifo.length < 32 ∧ VReady group1 entry1.mask (0 :: sizeRegs 2 127) ∧
      LanesPlaced (state1 group1) group1 entry1.mask (laneAddr group1 31 0) (sizeBytes 2) .store placeS :=
  ⟨acts1 _ _ rfl, by decide, vready1 _ rfl rfl _ _ (by decide), placed1 _ _ (by decide +kernel) _ (by decide +kernel)⟩

theorem test_hyp_AtomicsEnterTheFifo :
    Acts (state1 group1) 0 0 group1 entry1 ∧ VReady group1 entry1.mask (atomSources 14 0 ++ [126, 127]) ∧
      LanesPlaced (state1 group1) group1 entry1.mask (laneAddr group1 31 0) 8 .atomic placeS :=
  ⟨acts1 _ _ rfl, vready1 _ rfl rfl _ _ (by decide), placed1 _ _ (by decide +kernel) _ (by decide +kernel)⟩

/-- Bases two bytes into the scratchpad. -/
def groupOdd : Group := { group1 with g := Vector.replicate 64 0x7FF00000000002 }

theorem test_hyp_MisalignedAccessesTrap :
    Acts (state1 groupOdd) 0 0 groupOdd entry1 ∧ entry1.mask.getLsbD (0 : Fin 128).val = true ∧
      (laneAddr groupOdd 31 0 0).toNat % sizeBytes 2 ≠ 0 ∧
      (∀ l : Fin 128, entry1.mask.getLsbD l.val = true →
        ((state1 groupOdd).locate groupOdd l.val (laneAddr groupOdd 31 0 l).toNat (sizeBytes 2) .load).isSome = true) ∧
      ∀ l : Fin 128, entry1.mask.getLsbD l.val = true →
        ((state1 groupOdd).locate groupOdd l.val (laneAddr groupOdd 31 0 l).toNat (sizeBytes 2) .store).isSome = true :=
  ⟨acts1 _ _ rfl, by decide, by decide +kernel, lane0 (by decide +kernel), lane0 (by decide +kernel)⟩

/-- The core of the group with the tag of its first word empty. -/
def stateTag : State := { state1 group1 with cores := [(0, { emptyTags := [0] })] }

theorem test_hyp_TaggedLoadsComplete :
    Acts (state1 group1) 0 0 group1 entry1 ∧ entry1.wait = none ∧ group1.fencing = false ∧ group1.fifo = [] ∧
      LanesPlaced (state1 group1) group1 entry1.mask (laneAddr group1 31 0) 4 .tagLoad (fun _ => .scratch 0 0) ∧
      (∀ l : Fin 128, entry1.mask.getLsbD l.val = true → 0 % 4 = 0 ∧ 0 / 4 ∉ ((state1 group1).core 0).emptyTags) ∧
      Distinct entry1.mask (fun _ => 0) (fun _ => 0) :=
  ⟨acts1 _ _ rfl, rfl, by decide +kernel, rfl, placed1 _ _ (by decide +kernel) _ (by decide +kernel), fun _ _ => by decide +kernel,
    fun l k hl hk _ _ => (lane0 (P := fun l => l = 0) rfl l hl).trans (lane0 (P := fun l => l = 0) rfl k hk).symm⟩

theorem test_hyp_TaggedStoresComplete :
    Acts stateTag 0 0 group1 entry1 ∧ group1.fifo = [] ∧ group1.logOrder = [] ∧
      LanesPlaced stateTag group1 entry1.mask (laneAddr group1 31 0) 4 .tagStore (fun _ => .scratch 0 0) ∧
      (∀ l : Fin 128, entry1.mask.getLsbD l.val = true → 0 % 4 = 0 ∧ 0 / 4 ∈ (stateTag.core 0).emptyTags) ∧
      Distinct entry1.mask (fun _ => 0) (fun _ => 0) ∧ group1.fifo.length < 32 :=
  ⟨⟨rfl, rfl, rfl⟩, rfl, rfl,
    lane0 (P := fun l => ∃ t, stateTag.laneEnd group1 l.val (laneAddr group1 31 0 l).toNat 4 .tagStore = .loc (.scratch 0 0) t)
      ⟨none, by decide +kernel⟩,
    fun _ _ => by decide +kernel,
    fun l k hl hk _ _ => (lane0 (P := fun l => l = 0) rfl l hl).trans (lane0 (P := fun l => l = 0) rfl k hk).symm, by decide⟩

theorem test_hyp_CopiesAndBatches :
    Acts (state1 group1) 0 0 group1 entry1 ∧ group1.role = .any ∧ GReady group1 [28, 29, 30] ∧
      (∀ l : Fin 128, entry1.mask.getLsbD l.val = true →
        ((state1 group1).locate group1 l.val 0x7FF00000000000 16 .copyRead).isSome = true ∧
        ((state1 group1).locate group1 l.val 0x7FF00000000000 16 .copyWrite).isSome = true ∧ 0x7FF00000000000 % 16 = 0) ∧
      (state1 group1).copySlot 0 group1.core = some true ∧
      (state1 group1).canLock ((state1 group1).turnOf entry1) (lockPlan group1.core (.copy 0 0)
        ((state1 group1).copySpans group1 [(0, 0x7FF00000000000)] 16 .copyRead)
        ((state1 group1).copySpans group1 [(0, 0x7FF00000000100)] 16 .copyWrite)) = true ∧
      group1.sealedBatches.length ≤ (0 : BitVec 6).toNat ∧ group1.coveredFail = none :=
  ⟨acts1 _ _ rfl, rfl, gready1 _ rfl _, lane0 (by decide +kernel), by decide +kernel, by decide +kernel, by decide +kernel,
    by decide +kernel⟩

/-- A pool with a barrier of three arrivals at place 0, and a group that holds its handle in G6, a count in G5, phases in G7
and G8. -/
def groupBar : Group :=
  { group1 with g := ((((Vector.replicate 64 0).set 5 3).set 6 0x1000000000000).set 7 0xFFFFFFFF).set 8 0 }
def barrier1 : Barrier := { gen := 1, live := true, ctx := 0, e := 3, scope := 2, refs := 1 }
def stateBar : State := { state1 groupBar with cores := [(0, { barriers := [(0, barrier1)] })] }
/-- A pool with every place taken. -/
def statePool : State :=
  { state1 groupBar with cores := [(0, { barriers := (List.range 256).map fun i => (i, { live := true }) })] }

theorem test_hyp_BarriersAreAllocated :
    (Acts stateBar 0 0 groupBar entry1 ∧ GReady groupBar [63, 5] ∧ QReady groupBar [15] ∧
      (stateBar.vf (groupBar.ctx / 4096)).grants 2 = true ∧ 0 < (groupBar.gAt 5).toNat ∧ (groupBar.gAt 5).toNat < 65536 ∧
      (KeyMap.at (stateBar.core groupBar.core).barriers 1 {}).live = false ∧
      (∀ j, j < 1 → (KeyMap.at (stateBar.core groupBar.core).barriers j {}).live = true)) ∧
    ∀ j, j < 256 → (KeyMap.at (statePool.core groupBar.core).barriers j {}).live = true :=
  ⟨⟨⟨rfl, rfl, rfl⟩, gready1 _ rfl _, qready1 _ rfl _, by decide +kernel, by decide +kernel, by decide +kernel, by decide +kernel,
    by decide +kernel⟩, by decide +kernel⟩

theorem test_hyp_BarriersAreUsed :
    Acts stateBar 0 0 groupBar entry1 ∧ entry1.wait = none ∧ GReady groupBar [6, 7] ∧
      stateBar.barrierOf groupBar (groupBar.gAt 6) = some (0, 0, barrier1) ∧
      (stateBar.vf (groupBar.ctx / 4096)).grants barrier1.scope.toNat = true ∧ barrier1.refs < 65535 ∧
      groupBar.arriving (groupBar.gAt 6) = false ∧
      2 ^ 31 ≤ (BitVec.ofNat 32 (groupBar.gAt 7).toNat - barrier1.done).toNat ∧
      (BitVec.ofNat 32 (groupBar.gAt 8).toNat - barrier1.done).toNat < 2 ^ 31 :=
  ⟨⟨rfl, rfl, rfl⟩, rfl, gready1 _ rfl _, by decide +kernel, by decide +kernel, by decide, by decide +kernel, by decide +kernel,
    by decide +kernel⟩

/-- A group with a store in its FIFO. -/
def groupFifo : Group := { group1 with fifo := [.arrive 0 0 true] }

theorem test_hyp_FencesCompleteOrWait :
    (Acts (state1 group1) 0 0 group1 entry1 ∧ ((state1 group1).vf (group1.ctx / 4096)).grants 5 = false ∧
      ((state1 group1).vf (group1.ctx / 4096)).grants 4 = true ∧ (state1 group1).acquireReady 0 group1 group1.accSeq = true ∧
      group1.fifo = [] ∧ group1.logOrder = [] ∧ (state1 group1).farOut group1 4 = false) ∧
    (Acts (state1 groupFifo) 0 0 groupFifo entry1 ∧ groupFifo.fifo ≠ []) :=
  ⟨⟨acts1 _ _ rfl, by decide +kernel, by decide +kernel, by decide +kernel, rfl, rfl, by decide +kernel⟩, acts1 _ _ rfl, by decide⟩

/-- A group that holds a descriptor of two contributions at slot 63 of slice 1. -/
def groupNr : Group := { group1 with g := (Vector.replicate 64 0).set 24 0x20001013F }
def stateNr : State :=
  { state1 groupNr with slots := [(127, { ctx := 0, count := 2, result := some (true, 5) })] }

theorem test_hyp_NetworkReductions :
    (Acts (state1 groupNr) 0 0 groupNr entry1 ∧ GReady groupNr [24, 25] ∧ QReady groupNr [4] ∧
      (state1 groupNr).slotKey groupNr.ctx (groupNr.gAt 24) = some 127 ∧
      (groupNr.gAt 24).toNat / 2 ^ 16 % 2 ^ 16 < (groupNr.gAt 24).toNat / 2 ^ 32 % 2 ^ 16 ∧
      KeyMap.find (state1 groupNr).slots 127 = none) ∧
    (Acts stateNr 0 0 groupNr entry1 ∧ stateNr.slotKey groupNr.ctx (groupNr.gAt 24) = some 127 ∧ ∃ slot,
      KeyMap.find stateNr.slots 127 = some slot ∧ slot.result = some (true, 5) ∧ slot.ctx = groupNr.ctx ∧ stateNr.nrwaits = []) :=
  ⟨⟨acts1 _ _ rfl, gready1 _ rfl _, qready1 _ rfl _, by decide +kernel, by decide +kernel, rfl⟩, ⟨rfl, rfl, rfl⟩, by decide +kernel,
    _, rfl, rfl, rfl, rfl⟩

/-- Groups whose G registers are zero. -/
def groupZ : Group := { group1 with g := Vector.replicate 64 0 }
def groupZH : Group := { groupZ with priv := .h }

theorem test_hyp_TranslationsAndPrefetches :
    (Acts (state1 groupZ) 0 0 groupZ entry1 ∧ GReady groupZ [62, 63] ∧ (groupZ.gAt 63).toNat < 2 ^ 16 ∧
      groupZ.fifo = [] ∧ groupZ.logOrder = [] ∧ (∀ h ∈ (state1 groupZ).groups, ∀ o ∈ h.2.fifo, o.translated = false) ∧
      groupZ.priv ≠ .l ∧ groupZ.priv ≠ .h) ∧
    (Acts (state1 groupZH) 0 0 groupZH entry1 ∧ (∀ h ∈ (state1 groupZH).groups, ∀ o ∈ h.2.fifo, o.translated = false) ∧
      groupZH.priv = .h) ∧ (groupH.priv = .h ∧ 2 ^ 21 ≤ (groupH.gAt 63).toNat) ∧
      (group1.priv = .s ∧ 2 ^ 16 ≤ (group1.gAt 63).toNat) ∧
    (Acts (state1 groupL) 0 0 groupL entry1 ∧ groupL.priv = .l ∧ groupL.fencing = false ∧ VReady groupL entry1.mask [127] ∧
      GReady groupL [31]) :=
  ⟨⟨acts1 _ _ rfl, gready1 _ rfl _, by decide +kernel, rfl, rfl, by decide +kernel, by decide, by decide⟩,
    ⟨acts1 _ _ rfl, by decide +kernel, rfl⟩, ⟨rfl, by decide +kernel⟩, ⟨rfl, by decide +kernel⟩, acts1 _ _ rfl, rfl, by decide +kernel, vready1 _ rfl rfl _ _ (by decide), gready1 _ rfl _⟩

/-- The descriptor of a linear RGBA8 image of one texel, whose texel lies after it in the scratchpad. -/
def imageDesc : List Byte := leBytes 8 0x7FF00000000040 ++ leBytes 24 0
def stateTex : State := { state1 group1 with cores := [(0, { mem := (Memory.writeBytes [] 0 imageDesc).writeN 0x40 4 0xFF00FF80 })] }
def badDesc : List Byte := leBytes 8 0x7FF00000000041 ++ leBytes 24 0

theorem test_hyp_TexturesComplete :
    Acts stateTex 0 0 group1 entry1 ∧ group1.role = .any ∧ (stateTex.core group1.core).l1 = [] ∧
      VReady group1 entry1.mask [4, 5, 124, 125, 126, 127] ∧
      (∀ l : Fin 128, entry1.mask.getLsbD l.val = true → Readable stateTex group1 l (group1.gAt 6) 32 imageDesc) ∧
      texBad true imageDesc = none ∧ texBad false imageDesc = none ∧ texBad true badDesc = some 0 ∧ texBad false badDesc = some 0 ∧
      (∀ l : Fin 128, entry1.mask.getLsbD l.val = true → ∀ p ∈ (texPoints 13 imageDesc 0 0).1,
        Readable stateTex group1 l (texelAddr imageDesc p.1 p.2 0) (sampleBytes (field imageDesc 8 1)) [0x80, 0xFF, 0x00, 0xFF]) ∧
      texelInside imageDesc 0 0 0 ∧ ¬ texelInside imageDesc 1 0 0 := by
  have rd : ∀ (a : DWord) n bs, stateTex.laneEnd group1 0 a.toNat n .load = .loc (.scratch 0 (a.toNat - 0x7FF00000000000)) none →
      bs = bytesAt stateTex (.scratch 0 (a.toNat - 0x7FF00000000000)) n → Readable stateTex group1 0 a n bs :=
    fun a n bs h hb => ⟨_, none, h, hb, (by intro v k o h; cases h), (by intro pa h; cases h)⟩
  refine ⟨⟨rfl, rfl, rfl⟩, rfl, rfl, vready1 _ rfl rfl _ _ (by decide),
    lane0 (P := fun l => Readable stateTex group1 l (group1.gAt 6) 32 imageDesc) (rd _ _ _ (by decide +kernel) (by decide +kernel)),
    by decide +kernel, by decide +kernel, by decide +kernel, by decide +kernel,
    lane0 (P := fun l => ∀ p ∈ (texPoints 13 imageDesc 0 0).1,
      Readable stateTex group1 l (texelAddr imageDesc p.1 p.2 0) (sampleBytes (field imageDesc 8 1)) [0x80, 0xFF, 0x00, 0xFF]) ?_,
    by unfold texelInside; decide +kernel, by unfold texelInside; decide +kernel⟩
  intro p hp
  have hpts : (texPoints 13 imageDesc 0 0).1 = [(0, 0), (0, 0), (0, 0), (0, 0)] := by decide +kernel
  rw [hpts] at hp
  have : p = (0, 0) := by simpa using hp
  subst this
  exact rd _ _ _ (by decide +kernel) (by decide +kernel)

/-- A product of one by one by one of FP32 operands in the scratchpad, its parameter block at offset 0; a crew of one band. -/
def blockBytes : List Byte :=
  leBytes 2 1 ++ leBytes 2 1 ++ leBytes 4 1 ++ leBytes 4 0x40 ++ leBytes 4 16 ++ leBytes 4 0x80 ++ leBytes 4 16 ++ leBytes 40 0
def stateMma (g : Group) : State :=
  { state1 g with
    cores := [(0, { mem := Memory.writeBytes [] 0 blockBytes })]
    crews := [(0, { groups := [0], params := { wordParams with bands := 1 } })] }

theorem test_hyp_EngineOperationsAndTickets_mma :
    Acts (stateMma groupZ) 0 0 groupZ entry1 ∧ groupZ.role = .any ∧ groupZ.fifo.length < 32 ∧ GReady groupZ [10, 63] ∧
      (groupZ.gAt 10).toNat % 64 = 0 ∧ (groupZ.gAt 10).toNat + 64 ≤ ((stateMma groupZ).crew groupZ.crew).params.scratch ∧
      slotCode ((stateMma groupZ).slotOf groupZ 7) < 9 ∧
      blockBad ((stateMma groupZ).vf (groupZ.ctx / 4096)) ((stateMma groupZ).crew groupZ.crew) true ((stateMma groupZ).slotOf groupZ 7)
        ((stateMma groupZ).slotOf groupZ 7) (((stateMma groupZ).core groupZ.core).mem.bytes 0 64) = none ∧
      (stateMma groupZ).ownBytes groupZ (((stateMma groupZ).crew groupZ.crew).sbase + (groupZ.gAt 10).toNat) 64 =
        some (((stateMma groupZ).core groupZ.core).mem.bytes 0 64) ∧
      (stateMma groupZ).operandsBad groupZ.ctx (groupZ.core / 8) (parseBlock (((stateMma groupZ).core groupZ.core).mem.bytes 0 64))
        ((stateMma groupZ).slotOf groupZ 7) ((stateMma groupZ).slotOf groupZ 7) = none ∧ groupZ.engq.length < 4 :=
  ⟨⟨rfl, rfl, rfl⟩, rfl, by decide, gready1 _ rfl _, by decide +kernel, by decide +kernel, by decide +kernel, by decide +kernel,
    by decide +kernel, by decide +kernel, by decide⟩

/-- Bases at the scratchpad, a rectangle of one element, and tickets 0 and 1. -/
def groupAc : Group :=
  { group1 with g := ((Vector.replicate 64 0).set 1 0x7FF00000000000).set 2 0x1, engSeq := 2
                engq := [{ seq := 2, kind := .mma }], engDone := [(1, 0, 0, 0)] }

theorem test_hyp_EngineOperationsAndTickets_rect :
    Acts (stateMma groupAc) 0 0 groupAc entry1 ∧ (stateMma groupAc).mayLog groupAc entry1 = true ∧ slotCode ((stateMma groupAc).slotOf groupAc 0) < 5 ∧
      rectRow0 (groupAc.gAt 3) + rectRows (groupAc.gAt 3) ≤ ((stateMma groupAc).crew groupAc.crew).rows ∧
      rectCol0 (groupAc.gAt 3) + rectCols (groupAc.gAt 3) ≤ 1024 ∧
      (∀ r, r < rectRows (groupAc.gAt 3) → ∃ p, (stateMma groupAc).locate groupAc 0 (rectAddr (groupAc.gAt 1) (groupAc.gAt 3) 4 r 0).toNat
        (4 * rectCols (groupAc.gAt 3)) .copyRead = some p ∧ ∀ x y, p ≠ .fabric x y) ∧
      (stateMma groupAc).canLock ((stateMma groupAc).turnOf entry1) (lockPlan groupAc.core (.eng 0 3)
        ((stateMma groupAc).opSpans groupAc { seq := 0, kind := .acld, base := groupAc.gAt 1, rect := groupAc.gAt 3 }).1
        ((stateMma groupAc).opSpans groupAc { seq := 0, kind := .acld, base := groupAc.gAt 1, rect := groupAc.gAt 3 }).2) = true ∧
      (0 < (1 : Nat) ∧ 1 ≤ groupAc.engSeq ∧ (∀ o ∈ groupAc.engq, o.seq ≠ 1) ∧
        groupAc.engDone.find? (fun x => x.1 == 1) = some (1, 0, 0, 0)) ∧ (∃ o ∈ groupAc.engq, o.seq = 2) ∧ groupAc.engSeq < 3 := by
  refine ⟨⟨rfl, rfl, rfl⟩, by decide +kernel, by decide +kernel, by decide +kernel, by decide +kernel, ?_, by decide +kernel,
    by decide +kernel, by decide +kernel, by decide⟩
  intro r hr
  have h1 : rectRows (groupAc.gAt 3) = 1 := by decide +kernel
  have : r = 0 := by omega
  subst this
  exact ⟨.scratch 0 0, by decide +kernel, by intro x y h; cases h⟩

/-- A granted product, drained, of the group's engine queue; one that has ended; one that waits on a link. -/
def opMma : EngOp := { seq := 1, kind := .mma, blk := parseBlock blockBytes, granted := some 1, drained := true }
def groupOp (o : EngOp) : Group := { groupZ with engq := [o], engSeq := 1 }
def opAc : EngOp := { seq := 1, kind := .acld, base := 0x40100000, granted := some 1, drained := true }
/-- The machine with its tables, as withFetchWord makes it. -/
def statePaged (g : Group) : State := { state1 g with mem := placeWord [] 0, fwRegions := [0] }

theorem test_hyp_EngineSteps :
    (KeyMap.find (stateMma (groupOp opMma)).groups 0 = some (groupOp opMma) ∧ (stateMma (groupOp opMma)).ctxLive 0 = true ∧
      opMma.granted.isSome = true ∧ opMma.drained = true ∧ opMma.status = none ∧ opMma.blk.chain = 0 ∧ opMma.blk.srca = 0 ∧
      opMma.blk.srcb = 0 ∧ opMma.blk.col0 + opMma.blk.n ≤ 1024) ∧
    ({ opMma with status := some 0 } : EngOp).status = some 0 ∧
    (({ opMma with waited := some 0x4000000 } : EngOp).waited = some 0x4000000 ∧ (groupOp opMma).wdog.toNat ≤ 0x4000000) ∧
    (let s : State := { stateMma (groupOp { opMma with granted := none }) with clusters := [(0, { fifo := [.eng 0 1] })] }
     (s.cluster 0).fifo = .eng 0 1 :: [] ∧ (s.cluster 0).out + min opMma.charge (s.cluster 0).budget ≤ (s.cluster 0).budget) ∧
    ((groupOp opAc).rowLogged opAc.seq = false ∧ ∀ c, c < rectCols opAc.rect →
      (statePaged (groupOp opAc)).lineFault (0x40100000 + 4 * c) = none ∧
      cxlPort (0x40100000 + 4 * c) = none ∧
      ∃ x, (statePaged (groupOp opAc)).asyncEnd (groupOp opAc) 0 (rectAddr opAc.base opAc.rect 4 opAc.row c).toNat 4 .copyRead opAc.lev
        opAc.failed = .loc (.phys (0x40100000 + 4 * c)) x) := by
  refine ⟨⟨rfl, by decide +kernel, rfl, rfl, rfl, by decide +kernel, by decide +kernel, by decide +kernel, by decide +kernel⟩, rfl,
    ⟨rfl, by decide +kernel⟩, ⟨rfl, by decide +kernel⟩, by decide +kernel, ?_⟩
  intro c hc
  have h1 : rectCols opAc.rect = 1 := by decide +kernel
  have : c = 0 := by omega
  subst this
  exact ⟨by decide +kernel, by decide +kernel, _, rfl⟩

/-- An open stream of one pixel, in program order, and a group that holds its handle in G6 and PSN 0 in G7, PSN 1 in G8. -/
def stream1 : Stream := { live := true, ctx := 0, desc := 0x40200000, base := 0x40300000, method := [0x78000000] }
def groupRt : Group := { group1 with g := (((Vector.replicate 64 0).set 6 0x1000000000000).set 8 1).set 9 0x40200000 }
def stateRt : State := { statePaged groupRt with streams := [(0, stream1)] }

theorem test_hyp_FragmentsArePosted :
    Acts stateRt 0 0 groupRt entry1 ∧ entry1.wait = none ∧ GReady groupRt [6, 7] ∧
      stateRt.streamOf groupRt.ctx (groupRt.gAt 6) = some (0, stream1) ∧ groupRt.role = .any ∧
      groupRt.sealing (groupRt.gAt 6) = false ∧ stateRt.viewsReached stream1 = true ∧
      VReady groupRt entry1.mask [124, 125, 126, 127] ∧ PReady groupRt entry1.mask [47] ∧ groupRt.fencing = false ∧
      (∀ x ∈ groupRt.posts, groupRt.accSeq ≤ x.id) ∧ psnBehind stream1.f 0 = false ∧ stateRt.appliedBelow 0 stream1 0 = true ∧
      psnBehind stream1.f 1 = true ∧ (stateRt.vf (groupRt.ctx / 4096)).grants 5 = false ∧
      (stateRt.vf (groupRt.ctx / 4096)).grants 4 = true ∧ groupRt.fifo = [] ∧ groupRt.logOrder = [] :=
  ⟨⟨rfl, rfl, rfl⟩, rfl, gready1 _ rfl _, by decide +kernel, rfl, by decide +kernel, by decide +kernel,
    vready1 _ rfl rfl _ _ (by decide), pready1 _ rfl _ _ (by decide), by decide +kernel, by decide +kernel, by decide +kernel,
    by decide +kernel, by decide +kernel, by decide +kernel, by decide +kernel, rfl, rfl⟩

/-- The descriptor of such a target, and its program of one MEND, in memory. -/
def targetDescOk : List Byte :=
  leBytes 8 0x40300000 ++ leBytes 8 0 ++ leBytes 8 0x40210000 ++ leBytes 20 0 ++ leBytes 4 0 ++ leBytes 4 0x10000 ++ leBytes 12 0
def stateOpen : State :=
  { statePaged groupRt with
    mem := ((placeWord [] 0).writeBytes 0x40200000 targetDescOk).writeN 0x40210000 4 0x78000000 }

/-- RTOPEN of the target goes through, and its planes are mapped. -/
theorem test_hyp_StreamsOpenAndClose :
    Acts stateOpen 0 0 groupRt entry1 ∧ (groupRt.gAt 9).toNat % 64 = 0 ∧ stateOpen.streams = [] ∧
      (match stateOpen.prepareStream groupRt (groupRt.gAt 9) with
        | .ok t s1 => s1.freeStream == some 0 && s1.methodUsed (groupRt.ctx / 4096) + t.methodWords ≤ 16384 &&
          (match State.mapPlanes t t.allPages [] s1 with
            | .ok pages s2 => s2.absentLine pages t.allPages == none
            | _ => false)
        | _ => false) = true ∧
      (stateRt.streams.find? (fun x => x.2.live && x.2.ctx == groupRt.ctx && x.2.desc == groupRt.gAt 9) = some (0, stream1) ∧
        stream1.closing = false) ∧
      (stateRt.streamOf groupRt.ctx (groupRt.gAt 6) = some (0, stream1) ∧ groupRt.posts = [] ∧
        (∀ h psn q, FifoOp.fseal h psn q ∈ groupRt.fifo → groupRt.accSeq < q) ∧
        (∀ x h, FifoOp.late x h ∈ groupRt.fifo → x.seals = none) ∧ ∀ x ∈ groupRt.entries, ∀ y, x.wait = some y → y.seals = none) :=
  ⟨⟨rfl, rfl, rfl⟩, by decide +kernel, rfl, by decide +kernel, ⟨by decide +kernel, rfl⟩, by decide +kernel, rfl,
    (by intro h psn q hm; cases hm), (by intro x h hm; cases hm), by decide +kernel⟩

/-- An entry that waits in the second half of an RTCLOSE. -/
def entryClose : Entry := { entry1 with wait := some { instr := .rtclose 5 6 false, phase := 2 } }
def groupClose : Group := { groupRt with entries := [entryClose] }

theorem test_hyp_StreamsOpenAndClose_end :
    Acts (state1 groupClose) 0 0 groupClose entryClose ∧ (∃ wt, entryClose.wait = some wt ∧ wt.phase = 2 ∧ wt.x.toNat % 65536 = 0) ∧
      groupClose.fifo = [] ∧ groupClose.logOrder = [] ∧ (∀ r ∈ stateRt.shoreQ ++ stateRt.shoreHeld, r.stream ≠ 0) ∧
      KeyMap.find stateRt.streams 0 = some stream1 :=
  ⟨⟨rfl, rfl, rfl⟩, ⟨_, rfl, rfl, by decide⟩, rfl, rfl, by decide +kernel, rfl⟩

/-- A run of two samples on a Shore unit, with a buffered write. -/
def run1 : Run := { stream := 0, frag := { color := 0x44332211 }, rest := [1], buf := [(0x40300000, 7)] }
def stateShore : State := { stateRt with cur := .shore, shoreQ := [run1], groups := [] }

theorem test_hyp_MethodWordsRun :
    stateShore.cur = .shore ∧ stateShore.shoreQ = run1 :: [] ∧ KeyMap.find stateShore.streams run1.stream = some stream1 ∧
      lastFor run1.buf (stream1.fieldAt run1 0) = some 7 ∧ run1.rest ≠ [] ∧
      (match State.commitEnds stream1 run1.buf [] stateShore with
        | .ok _ _ => true
        | _ => false) = true ∧ lastFor [] (stream1.fieldAt run1 0) = (none : Option Word) ∧
      (match stateShore.fetchBytes stream1.ctx (stream1.fieldAt run1 0) 4 stream1.priv .atomic with
        | .ok _ _ => true
        | _ => false) = true :=
  ⟨rfl, rfl, rfl, by decide +kernel, by decide, by decide +kernel, by decide +kernel, by decide +kernel⟩

/-- Streams whose bitmap is empty, or holds the next PSN; a fragment at the view, one ahead, one behind. -/
def groupSeal (psn : BitVec 24) : Group := { groupRt with fifo := [.fseal 0x1000000000000 psn 0] }
def stateSeal (psn : BitVec 24) (b : List (BitVec 24)) : State :=
  { state1 (groupSeal psn) with streams := [(0, { stream1 with bitmap := b })] }
def streamAt (psn : BitVec 24) : Stream := { stream1 with flight := [(0, { psn, cov := 1 })] }

theorem test_hyp_FragmentsAreOrdered :
    (KeyMap.find (stateSeal 0 [1]).groups 0 = some (groupSeal 0) ∧ (stateSeal 0 [1]).ctxLive 0 = true ∧
      (groupSeal 0).fifo = .fseal 0x1000000000000 0 0 :: [] ∧
      (stateSeal 0 [1]).streamOf 0 0x1000000000000 = some (0, { stream1 with bitmap := [1] }) ∧
      (0 : BitVec 24) ∉ [(1 : BitVec 24)] ∧ (0 : BitVec 24) + 1 ∈ [(1 : BitVec 24)] ∧ [(1 : BitVec 24)].Nodup) ∧
    ((stateSeal 4095 []).streamOf 0 0x1000000000000 = some (0, stream1) ∧ (4095 - stream1.f).toNat < 4096 ∧
      4096 ≤ (4096 - stream1.f : BitVec 24).toNat ∧ (4096 - stream1.f : BitVec 24).toNat < 2 ^ 23 ∧
      2 ^ 23 ≤ (0x800000 - stream1.f : BitVec 24).toNat) ∧
    (∀ o ∈ stateRt.streams, o.1 ≠ 0 → o.2.flight = []) ∧
    (0 ∈ (stateRt.vf (stream1.ctx / 4096)).shoreUnits ∧ stream1.live = true ∧ stateRt.ctxLive stream1.ctx = true) ∧
    (stream1.comm = false ∧ (0 - KeyMap.at stream1.views 0 0 : BitVec 24).toNat = 0 ∧ stateRt.slotsTaken 0 true + 1 ≤ 512 ∧
      stream1.held = [] ∧ (4095 - KeyMap.at stream1.views 0 0 : BitVec 24).toNat < 4096 ∧ stateRt.slotsTaken 0 false + 1 ≤ 7680) :=
  ⟨⟨rfl, by decide +kernel, rfl, by decide +kernel, by decide, by decide, by decide⟩,
    ⟨by decide +kernel, by decide, by decide, by decide, by decide⟩, by decide +kernel, ⟨by decide +kernel, rfl, by decide +kernel⟩,
    rfl, by decide +kernel, by decide +kernel, rfl, by decide +kernel, by decide +kernel⟩

/-- A queue with a value of class 1 before one of class 0, an empty one, and a launch queue; their handles in G6, G7, G8. -/
def queue1 : Queue := { gen := 1, live := true, ctx := 0, cap := 16, elems := [(0, 5), (1, 6)] }
def groupQ : Group :=
  { group1 with g := (((Vector.replicate 64 0).set 6 0x1000000000000).set 7 0x1000000000001).set 8 0x1000000000002 }
def stateQ : State :=
  { state1 groupQ with queues := [(0, queue1), (1, { queue1 with elems := [] }), (2, { queue1 with launch := true })]
                       contexts := [(0, { asid := 1, sq := 9 })] }

theorem test_hyp_QueueWords :
    Acts stateQ 0 0 groupQ entry1 ∧ GReady groupQ [6, 7, 8, 63] ∧ QReady groupQ [15] ∧ groupQ.fencing = false ∧
      groupQ.fifo.length < 32 ∧ stateQ.queueOf groupQ.ctx (groupQ.gAt 6) = some (0, queue1) ∧
      queue1.elems = [(0, 5)] ++ (1, 6) :: [] ∧ (∀ x ∈ [((0 : Nat), (5 : DWord))], x.1 < 1) ∧
      stateQ.queueOf groupQ.ctx (groupQ.gAt 7) = some (1, { queue1 with elems := [] }) ∧
      stateQ.queueOf groupQ.ctx (groupQ.gAt 8) = some (2, { queue1 with launch := true }) ∧
      ((queue1.launch = true → (groupQ.gAt 63).toNat % 256 = 0) ∧ (groupQ.priv = .l → (stateQ.ctx groupQ.ctx).sq ≠ 0)) ∧
      ¬ (({ queue1 with launch := true } : Queue).launch = true → (1 : DWord).toNat % 256 = 0) :=
  ⟨⟨rfl, rfl, rfl⟩, gready1 _ rfl _, qready1 _ rfl _, by decide +kernel, by decide, by decide +kernel, rfl, by decide, by decide +kernel,
    by decide +kernel, by decide +kernel, by decide⟩

/-- Entries that wait in a TSPAWN whose place in the store FIFO has come: a record whose counters name nothing, and one whose
CTRL breaks R297. -/
def taskRec (ctrl : Nat) : List Byte := leBytes 8 ctrl ++ leBytes 56 0
def entryTs (a : DWord) : Entry := { entry1 with wait := some { instr := .tspawn 5 false, phase := 0, x := a, seq := 3 } }
def groupTs (a : DWord) : Group := { groupZ with entries := [entryTs a], fifo := [.mark 3] }
def stateTs (a : DWord) (ctrl : Nat) : State :=
  { statePaged (groupTs a) with mem := (placeWord [] 0).writeBytes 0x40200000 (taskRec ctrl) }

theorem test_hyp_TasksAreSpawnedAndBlocksMove :
    (Acts (state1 groupZ) 0 0 groupZ entry1 ∧ entry1.wait = none ∧ groupZ.fencing = false ∧ GReady groupZ [5] ∧
      (groupZ.gAt 5).toNat % 64 = 0) ∧
    (Acts (stateTs 0x40200000 0x80) 0 0 (groupTs 0x40200000) (entryTs 0x40200000) ∧ (∃ wt, (entryTs 0x40200000).wait = some wt ∧
        wt.phase = 0 ∧ wt.seq = 3 ∧ wt.x = 0x40200000 ∧ wt.data = []) ∧ (entryTs 0x40200000).fail = none ∧ (entryTs 0x40200000).held = none ∧
      (groupTs 0x40200000).logOrder = [] ∧ (groupTs 0x40200000).fifo.head? = some (.mark 3) ∧
      (match (stateTs 0x40200000 0x80).fetchBytes 0 0x40200000 64 .s with
        | .ok r _ => bit (field r 0 8) 7
        | _ => false) = true) ∧
    ((16 : Nat) ≤ (16 : BitVec 6).toNat ∧ (15 : BitVec 6).toNat < groupZ.blocks ∧ groupZ.fullFrom (8 * (groupZ.blocks - 15)) = true ∧
      groupZ.logNames (8 * (groupZ.blocks - 15)) = false ∧ 16 < groupZ.blocks + (1 : BitVec 6).toNat) ∧
    (let g : Group := { groupZ with blocks := 1 }
     let s : State := { state1 g with crews := [(0, { groups := [0], pool := 15, params := wordParams })] }
     Acts s 0 0 g entry1 ∧ g.blocks + (15 : BitVec 6).toNat ≤ 16 ∧ (s.crew g.crew).claims = [] ∧ 15 ≤ (s.crew g.crew).pool) :=
  ⟨⟨acts1 _ _ rfl, rfl, by decide +kernel, gready1 _ rfl _, by decide +kernel⟩,
    ⟨⟨rfl, rfl, rfl⟩, ⟨_, rfl, rfl, rfl, rfl, rfl⟩, rfl, rfl, rfl, rfl, by decide +kernel⟩,
    ⟨by decide, by decide, by decide +kernel, by decide +kernel, by decide⟩, ⟨rfl, rfl, rfl⟩, by decide, rfl, by decide +kernel⟩

/-- A copy-task record at 0x40200000 and its descriptor. -/
def copyRec : List Byte := leBytes 8 1 ++ leBytes 8 0x40200100 ++ leBytes 48 0
def stateTsOk : State :=
  { statePaged (groupTs 0x40200000) with
    mem := ((placeWord [] 0).writeBytes 0x40200000 copyRec).writeBytes 0x40200100
      (leBytes 8 0x40300000 ++ leBytes 8 0x40300100 ++ leBytes 8 16 ++ leBytes 8 0) }

/-- The record spawns. -/
theorem test_hyp_TasksAreSpawnedAndBlocksMove_spawn :
    (match stateTsOk.spawn (groupTs 0x40200000).ctx 0x40200000 .s (halfCluster (groupTs 0x40200000).core) [] with
      | .ok _ => true
      | _ => false) = true ∧
    (groupZ.blocks + (0 : BitVec 6).toNat ≤ 16 ∧
      (let s : State := { state1 groupZ with crews := [(0, { claims := [(5, 1)] })] }
       (s.crew groupZ.crew).claims ≠ [] ∧ KeyMap.find s.crews groupZ.crew = some { claims := [(5, 1)] })) :=
  ⟨by decide +kernel, by decide +kernel, by decide +kernel, rfl⟩

/-- Set 1 of a table of set descriptors at 0x40200000: two holders, and the tiles given as the A holder with the bow bit, and the
B holder. -/
def bowTable (ts : List (Nat × Nat)) : List Byte := ts.flatMap fun t => leBytes 8 t.1 ++ leBytes 8 t.2
def setDesc1 (tiles : Nat) : List Byte := leBytes 8 0x40210000 ++ leBytes 2 tiles ++ leBytes 2 2 ++ leBytes 20 0
def waitBow (n : Nat) : Wait :=
  { instr := .bowchk 12 10 11 false, x := 1, seq := 3, data := [(0, .ofNat 32 n), (1, 2), (2, 0x40210000), (3, 0)] }
def entryBow (n : Nat) : Entry := { entry1 with wait := some (waitBow n) }
def groupBow : Group := { groupZ with g := (Vector.replicate 64 0).set 10 1 }
def groupBowW (n : Nat) : Group := { groupBow with entries := [entryBow n], fifo := [.mark 3] }
def stateBow (g : Group) (ts : List (Nat × Nat)) (sets : KeyMap RSet) : State :=
  { statePaged g with
    mem := ((placeWord [] 0).writeBytes 0x40200020 (setDesc1 ts.length)).writeBytes 0x40210000 (bowTable ts)
    contexts := [(0, { s1root := 0x40010000, asid := 1, rstab := 0x40200000, rslen := 2 })]
    sets := sets }

/-- What BOWCHK reads of a table: the tile that is malformed, and those left when sinks are gone. -/
def bowRead (ts : List (Nat × Nat)) : Option (Option Nat × Nat × Bool) :=
  match State.readTable (groupBowW ts.length) ((waitBow ts.length).kept32 0) 0x40210000 [] (stateBow (groupBowW ts.length) ts []) with
  | .ok raw s1 => some (malformedTile raw ((waitBow ts.length).kept32 1),
      (removeSinks raw.length ((List.range raw.length).zip (raw.map tileOf))).length,
      decide (ts.length + s1.bowCacheUsed ((s1.unarm 0 1).setHome 0 1) ≤ 16384))
  | _ => none

theorem test_hyp_RegattaWordsAndSinkRemoval :
    (Acts (stateBow groupBow [] []) 0 0 groupBow entry1 ∧ entry1.wait = none ∧ groupBow.fencing = false ∧
      GReady groupBow [10, 11, 12] ∧ groupBow.gAt 11 = 0 ∧
      (match (stateBow groupBow [(0x40220000, 0x40220040)] []).checkSet groupBow (groupBow.gAt 10) with
        | .ok _ _ => true
        | _ => false) = true) ∧
    (Acts (stateBow (groupBowW 1) [(0x40220000, 0x40220040)] []) 0 0 (groupBowW 1) (entryBow 1) ∧
      (entryBow 1).wait = some (waitBow 1) ∧ (waitBow 1).phase = 0 ∧ (entryBow 1).fail = none ∧ (entryBow 1).held = none ∧
      (groupBowW 1).logOrder = [] ∧ (groupBowW 1).fifo.head? = some (.mark (waitBow 1).seq) ∧ (waitBow 1).y = 0) ∧
    (KeyMap.at (stateBow (groupBowW 1) [] [(1, { opened := true })]).sets ((groupBowW 1).ctx * 65536 + 1) {}).opened = true ∧
    bowRead [(0x40220000, 0x40220000)] = some (some 0, 0, true) ∧
    bowRead [(0x40220000, 0x40220040)] = some (none, 0, true) ∧
    bowRead [(0x40220000, 0x40220040), (0x40220001, 0x40220040)] = some (none, 2, true) ∧
    ((let g : Group := { groupBow with g := (Vector.replicate 64 0).set 11 0x1FFFF }
      (state1 g).mayLog g entry1 = true ∧ (g.gAt 11).toNat % 65536 = 0xFFFF ∧ (g.gAt 11).toNat < 2 ^ 17 ∧ (g.gAt 12).toNat % 64 = 0) ∧
      (groupBow.gAt 12).toNat < ((stateBow groupBow [] []).ctx groupBow.ctx).rslen) ∧
    (∀ t ∈ [tileOf (bowTable [(0x40220000, 0x40220040)])], t.holdA ≠ t.holdB) :=
  ⟨⟨⟨rfl, rfl, rfl⟩, rfl, by decide +kernel, gready1 _ rfl _, by decide +kernel, by decide +kernel⟩,
    ⟨⟨rfl, rfl, rfl⟩, rfl, rfl, rfl, rfl, rfl, rfl, rfl⟩, by decide +kernel, by decide +kernel, by decide +kernel, by decide +kernel,
    ⟨by decide +kernel, by decide +kernel⟩, by decide +kernel⟩

/-- A fill of V5, G7 and Q3. -/
def fill1 : Fill := { v := [(5, 1, Vector.replicate 128 9)], g := [(7, 1)], q := [(3, true)] }

theorem test_hyp_FillsLand :
    Runs (state1 { groupZ with fills := [fill1] }) 0 { groupZ with fills := [fill1] } ∧ fill1.tx = none ∧
      (state1 { groupZ with fills := [fill1] }).fillHeld 0 fill1 = false ∧ groupZ.exits = [] ∧
      (fill1.v.map fun x => x.1).Nodup ∧ (fill1.g.map fun x => x.1).Nodup ∧ (fill1.q.map fun x => x.1).Nodup :=
  ⟨⟨rfl, by decide +kernel⟩, rfl, by decide +kernel, rfl, by decide, by decide, by decide⟩

/-- A copy of one lane, ready; a group whose FIFO drains `o`. -/
def copy1 : CopyOp := { gid := 0, batch := 0, lanes := [(0, 0x40300000, 0x40300100)], n := 16, ready := true }
def groupDr (o : FifoOp) : Group := { groupBar with fifo := [o] }
def stateDr (o : FifoOp) : State :=
  { statePaged (groupDr o) with
    cores := [(0, { barriers := [(0, barrier1), (1, { barrier1 with a := 2 })], copies := [(4, copy1)] })]
    queues := [(0, queue1), (1, { queue1 with cap := 2 })], sets := [(1, {})], slots := [] }

theorem runs1 : (statePaged groupBar).ctxLive 0 = true := by decide +kernel

theorem test_hyp_StoresAndCopiesLand :
    (∀ o, (∀ seq, o ≠ .mark seq) → (∀ seq ps, o ≠ .ste seq ps) → Drains (stateDr o) 0 (groupDr o) o []) ∧ (∀ o, (groupDr o).farBefore 0 = false) ∧ (∀ o, (groupDr o).logOrder = []) ∧
      (∀ o, (stateDr o).farOut (groupDr o) barrier1.scope.toNat = false) ∧ (∀ o, GoodPlace (stateDr o) 0x40300000) ∧
      KeyMap.find ((stateDr (.copy 4)).core 0).copies 4 = some copy1 ∧
      (stateDr (.arrive 0x1000000000000 0 false)).barrierOf (groupDr (.arrive 0x1000000000000 0 false)) 0x1000000000000 = some (0, 0, barrier1) ∧
      barrier1.a + 1 < barrier1.e ∧
      (stateDr (.arrive 0x1000000000001 0 false)).barrierOf (groupDr (.arrive 0x1000000000001 0 false)) 0x1000000000001 =
        some (0, 1, { barrier1 with a := 2 }) ∧ (2 + 1 : Nat) = barrier1.e ∧ barrier1.tx = 0 ∧ barrier1.scope.toNat < 5 ∧
      (stateDr (.nred 0x20001013F 0 5)).slotKey 0 0x20001013F = some 127 ∧
      (stateDr (.qpush 0x1000000000000 1 5 1)).queueOf 0 0x1000000000000 = some (0, queue1) ∧ queue1.waiters = [] ∧
      queue1.elems.length < queue1.cap ∧
      (stateDr (.qpush 0x1000000000001 1 5 1)).queueOf 0 0x1000000000001 = some (1, { queue1 with cap := 2 }) ∧
      KeyMap.find (stateDr (.bowidle 1 0 true)).sets (0 * 65536 + 1) = some {} ∧
      (copy1.held = none ∧ copy1.bar = none ∧
        (∃ x, (stateDr (.copy 4)).asyncEnd (groupDr (.copy 4)) 0 0x40300000 16 .copyRead copy1.lev copy1.failed = .loc (.phys 0x40300000) x) ∧
        ∃ y, (stateDr (.copy 4)).asyncEnd (groupDr (.copy 4)) 0 0x40300100 16 .copyWrite copy1.lev copy1.failed = .loc (.phys 0x40300100) y) :=
  ⟨fun _ h1 h2 => ⟨⟨rfl, runs1⟩, rfl, h1, h2⟩, fun _ => rfl, fun _ => rfl, fun _ => rfl, fun _ => ⟨rfl, rfl⟩, by decide +kernel,
    by decide +kernel, by decide, by decide +kernel, rfl, rfl, by decide, by decide +kernel, by decide +kernel, rfl, by decide,
    by decide +kernel, by decide +kernel, rfl, rfl, ⟨_, rfl⟩, ⟨_, rfl⟩⟩

/-- Entries that have waited to their limit: a BARWAIT, an LDF, an RTSYNC, a VCLAIM. -/
def entryW (w : Wait) : Entry := { entry1 with wait := some w }
def groupW (w : Wait) : Group := { groupRt with entries := [entryW w] }
def stateW (w : Wait) : State :=
  { state1 (groupW w) with
    cycle := 200, cores := [(0, { barriers := [(0, barrier1)] })], streams := [(0, stream1)]
    crews := [(0, { groups := [0], params := wordParams, claims := [(0, 3)] })] }
def waitBar : Wait := { start := 100, limit := 100, instr := .barwait 6 7 false, x := 0x1000000000000 }
def waitTag : Wait := { start := 100, limit := 100, instr := .ldf 8 7 2 0 false, phase := 7, places := [(0, 0, 0, 0x7FF00000000000)] }
def waitSync : Wait := { start := 100, limit := 100, instr := .rtsync 6 7 false, x := 0x1000000000000 }
def waitClaim : Wait := { start := 100, limit := 100, instr := .vclaim 1 false, seq := 3 }

theorem test_hyp_WaitsExpire :
    (∀ w, w.start = 100 → w.limit = 100 → Expires (stateW w) 0 0 (groupW w) (entryW w) w) ∧
      (waitBar.start = 100 ∧ waitBar.limit = 100 ∧ (stateW waitBar).barrierOf (groupW waitBar) waitBar.x = some (0, 0, barrier1) ∧
        (BitVec.ofNat 32 waitBar.y.toNat - barrier1.done).toNat < 2 ^ 31) ∧
      (waitTag.start = 100 ∧ waitTag.limit = 100 ∧ waitTag.phase = 7 ∧ waitTag.left = (0, 0, 0, 0x7FF00000000000) :: []) ∧
      (waitSync.start = 100 ∧ waitSync.limit = 100 ∧ (stateW waitSync).streamOf (groupW waitSync).ctx waitSync.x = some (0, stream1)) ∧
      (waitClaim.start = 100 ∧ waitClaim.limit = 100 ∧ (KeyMap.find (stateW waitClaim).crews (groupW waitClaim).crew).isSome = true) :=
  ⟨fun _ h1 h2 => ⟨⟨rfl, runs1⟩, rfl, rfl, by show _ ≤ 200 - _; omega,
      (by decide : (0 : Word).getLsbD 3 = false), (by decide : wordParams.handler ≠ 0)⟩,
    ⟨rfl, rfl, by decide +kernel, by decide⟩, ⟨rfl, rfl, rfl, by decide +kernel⟩, ⟨rfl, rfl, by decide +kernel⟩, rfl, rfl,
    by decide +kernel⟩

/-- An entry that has starved and whose yield mark is old, in a group whose oldest logged access is lost. -/
def entryStarved : Entry := { entry1 with starve := 1024, yield := true }
def logLane1 : LogLane := { lane := 5, addr := 0x40300000, data := [], wait := .lost .accessViolation 0 }
def logEntry1 : LogEntry := { src := { instr := .ld 8 7 4 2 0 false, pc := 0x1000 }, lanes := [logLane1] }
def groupLog : Group :=
  { groupZ with entries := [entryStarved], logOrder := [2], oplog := (Vector.replicate 8 none).set 2 (some logEntry1) }
def stateLog : State := { state1 groupLog with cycle := 64 }

theorem test_hyp_DeferredTrapsAndMarks :
    Runs stateLog 0 groupLog ∧ (groupLog.entries[0]? = some entryStarved ∧ 1024 ≤ entryStarved.starve ∧ entryStarved.due = false ∧
      entryStarved.yield = true ∧ 64 ≤ stateLog.cycle - entryStarved.yieldAt) ∧
      (groupLog.tinfo.getLsbD 3 = false ∧ groupLog.finalExit = false ∧ (stateLog.crew groupLog.crew).params.handler ≠ 0 ∧
        groupLog.logOrder = 2 :: [] ∧ vecGet groupLog.oplog 2 none = some logEntry1 ∧ logEntry1.eng = none ∧
        logEntry1.lanes = [logLane1] ∧ logLane1.wait = .lost .accessViolation 0) :=
  ⟨⟨rfl, by decide +kernel⟩, ⟨rfl, by decide, rfl, rfl, by decide⟩, by decide +kernel, rfl, by decide +kernel, rfl, by decide +kernel,
    rfl, rfl, rfl⟩

/-- A launch queue whose one record is at 0x40200000, in a context whose SQ is another queue. -/
def launchQueue : Queue := { gen := 1, live := true, ctx := 0, launch := true, cap := 16, elems := [(3, 0x40200000)] }
def launchRec (groups : Nat) : List Byte :=
  leBytes 8 0x40100000 ++ leBytes 8 7 ++ leBytes 8 0x40200000 ++ leBytes 8 0x41000000 ++ leBytes 2 groups ++ leBytes 1 16 ++
    leBytes 1 0 ++ leBytes 4 65536 ++ leBytes 4 1 ++ leBytes 212 0
def stateLaunch (groups : Nat) : State :=
  { statePaged groupZ with
    mem := (placeWord [] 0).writeBytes 0x40200000 (launchRec groups)
    queues := [(4, launchQueue)], groups := [], crews := [] }
def judged (groups : Nat) : Option Bool :=
  match (stateLaunch groups).fetchBytes launchQueue.ctx 0x40200000 256 .l with
  | .ok r _ => some (match judge ((stateLaunch groups).vf 0) 0x40200000 r with
    | .ok _ => true
    | .error _ => false)
  | _ => none
/-- A launch accepted, of one crew. -/
def launch1 : Launch := { ctx := 0, params := { wordParams with levels := [] } , queue := 4 }
def statePlace : State :=
  { statePaged groupZ with
    groups := [], crews := [], launches := [(1, launch1)]
    vfs := [(0, { slices := 1, s2root := 0x10000, regions := [1], order := [1] })] }
def crewStagger : Crew := { params := wordParams, started := false }

theorem test_hyp_LaunchesAndTasksRun_launches :
    ((stateLaunch 1).nextLaunchOf 0 = some (4, launchQueue, 3, 0x40200000) ∧ KeyMap.find (stateLaunch 1).queues 4 = some launchQueue ∧
      (KeyMap.find (stateLaunch 1).vfs 0).isSome = true ∧ ((stateLaunch 1).vf 0).acceptHeld = [] ∧
      (0x40200000 : DWord).toNat % 256 = 0 ∧ judged 1 = some true ∧ judged 97 = some false ∧
      ({ stateLaunch 1 with queues := [(4, { launchQueue with elems := [(3, 0x40200004)] })] } : State).nextLaunchOf 0 =
        some (4, { launchQueue with elems := [(3, 0x40200004)] }, 3, 0x40200004)) ∧
    (statePlace.headLaunch 0 = some (1, launch1) ∧ [3].length = launch1.params.gang ∧ (∀ c ∈ [3], c / 8 ∈ (statePlace.vf 0).clusters) ∧
      launch1.params.bound launch1.placed [3] = true ∧
      (statePlace.placeCrews 1 launch1 ([3].zipIdx.map fun x => (x.1, launch1.placed + x.2))).isSome = true) ∧
    ({ state1 groupZ with crews := [(0, crewStagger)] } : State).staggerDue 0 crewStagger = true :=
  ⟨⟨by decide +kernel, rfl, by decide +kernel, by decide +kernel, by decide, by decide +kernel, by decide +kernel, by decide +kernel⟩,
    ⟨by decide +kernel, by decide +kernel, by decide +kernel, by decide +kernel, by decide +kernel⟩, by decide +kernel⟩

/-- A compute task, a copy task, a task another core may steal, a copy under way, a set with tasks. -/
def task1 : Task := { record := 0x40200000, ctx := 0, kind := 0, prio := 0, entry := 0x40100000, params := wordParams }
def task2 : Task := { task1 with kind := 1, copy := some (0x40300000, 0x40300100, 16) }
def copyTask1 : CopyTask := { id := 1, record := 0x40200000, ctx := 0, src := 0x40300000, dst := 0x40300100, size := 16 }
def stateTask (t : Task) : State := { statePaged groupZ with cores := [(3, { tasks := [t], copyTasks := [copyTask1] })] }
def rtask1 (idle : Bool) : RTask := { record := 0x40200000, heats := 2, idle := idle, ended := some idle }
def rset1 (idle : Bool) : RSet := { tasks := [rtask1 idle], eligible := [(0x40200000, idle)] }

theorem test_hyp_LaunchesAndTasksRun_tasks :
    (((stateTask task1).core 3).tasks = task1 :: [] ∧ (stateTask task1).ctxLive task1.ctx = true ∧ task1.copy = none ∧
      (stateTask task1).fits task1.crewParams 3 = true ∧ task1.set = none ∧ task1.kind = 0 ∧ (stateTask task1).pending = [] ∧
      task1.spilled = false ∧ KeyMap.find (stateTask task1).groups (96 * 3 + 0) = none) ∧
    (((stateTask task2).core 3).tasks = task2 :: [] ∧
      (stateTask task2).canLock (stateTask task2).tick (lockPlan 3 (.task 3 ((stateTask task2).core 3).nextCopy) [copySpan 3 0 0x40300000 16]
        [copySpan 3 0 0x40300100 16]) = true) ∧
    (task1.stealable = false ∧ task1.nosteal = false ∧
      ((stateTask task1).ctx task1.ctx).age ≤ ({ stateTask task1 with cycle := 5000 } : State).cycle - task1.since) ∧
    (let t : Task := { task1 with stealable := true }
     let s : State := { stateTask t with vfs := [(0, { slices := 1 })] }
     ∃ v, s.vfOfCore 0 = some (0, v) ∧ s.stealFor v 0 = some (3, t) ∧
       ∀ c ∈ v.clusters, ∀ i, i < 8 → 8 * c + i ≠ 0 → s.idleFor (8 * c + i) t = true → v.nearer (t.home / 2) (8 * c + i) 0 = false) ∧
    (((stateTask task1).core 3).copyTasks[0]? = some copyTask1 ∧
      (∃ x, (stateTask task1).taskEnd copyTask1 copyTask1.src .copyRead = .loc (.phys 0x40300000) x) ∧
      (∃ x, (stateTask task1).taskEnd copyTask1 copyTask1.dst .copyWrite = .loc (.phys 0x40300100) x) ∧
      (stateTask task1).lineFault 0x40300100 = none) ∧
    (∀ idle, ((rset1 idle).tasks.map fun z => z.record).Nodup ∧ rtask1 idle ∈ (rset1 idle).tasks ∧
      (rset1 idle).eligible = ((rtask1 idle).record, idle) :: [] ∧ 1 < (rtask1 idle).heats ∧ (rset1 idle).tasks[0]? = some (rtask1 idle) ∧
      (rtask1 idle).ended = some idle) :=
  ⟨⟨by decide +kernel, by decide +kernel, rfl, by decide +kernel, rfl, rfl, rfl, rfl, by decide +kernel⟩,
    ⟨by decide +kernel, by decide +kernel⟩, ⟨rfl, rfl, by decide +kernel⟩,
    ⟨_, rfl, by decide +kernel, by decide +kernel⟩, ⟨by decide +kernel, ⟨_, rfl⟩, ⟨_, rfl⟩, by decide +kernel⟩,
    by intro i; cases i <;> decide +kernel⟩

/-- Page requests and replies: a ring of requests at 0x90000, one of replies at 0x80000, both empty or with one reply of tag 5. -/
def req1 : PageReq := { ipa := 0x40000000 }
def vfRing : VF :=
  { slices := 1, s2root := 0x10000, regions := [1], requests := [req1], prq := { base := 0x90000, len := 64 }
    rpqbase := 0x80000, rpqlen := 64, peers := [(9, 0)] }
def stateRing (reply : Nat) (rs : List PageReq) : State :=
  { statePaged groupLog with
    mem := ((placeWord [] 0).writeN 0x80000 4 5).writeN 0x80008 8 reply
    vfs := [(0, { vfRing with requests := rs })] }
def tx1 : Tx := { id := 8, gid := 0, vf := 0, window := 0, kind := 0, lanes := [(3, 0x100)], n := 4 }
def stateTx : State := { stateRing 0 [] with txs := [tx1], ports := [(2, { up := false })] }
/-- The same with a stage-2 leaf that lets the fabric in. -/
def stateFab : State := { stateTx with mem := stateTx.mem.writeN 0x20010 8 0x4000003D }

theorem test_hyp_PageRingsAndPorts :
    (KeyMap.find (stateRing 0 [req1]).vfs 0 = some vfRing ∧ vfRing.requests.find? (fun q => q.tag.isNone) = some req1 ∧
      (∀ x ∈ vfRing.requests, x.tag ≠ some 0) ∧ bit ((stateRing 0 [req1]).mem.readN (0x90000 + 0x1C) 4) 31 = false) ∧
    (bit ((stateRing 0 [req1]).mem.readN 0x80008 8) 63 = false ∧ (stateRing (2 ^ 63) []).mem.readN 0x80008 8 = 2 ^ 63 ∧
      (stateRing (2 ^ 63) []).mem.readN 0x80005 3 = 0 ∧ (stateRing (2 ^ 63) []).mem.readN 0x80000 4 = 5 ∧
      ((stateRing (2 ^ 63) []).mem.read 0x80004).toNat ≤ 3 ∧
      (({ vfRing with requests := [{ req1 with tag := some 5 }] } : VF).requests.find? (fun q => q.tag == some 5)).isSome = true ∧
      (∀ q ∈ ({ vfRing with requests := [] } : VF).requests, q.tag ≠ some 5) ∧ 5 ∉ vfRing.retired ∧
      bit ((stateRing (2 ^ 63) []).mem.readN 0x80018 8) 63 = false) ∧
    (stateTx.txs.find? (fun t => t.id == 8) = some tx1 ∧ KeyMap.find stateTx.groups tx1.gid = some groupLog ∧ tx1.lanes ≠ [] ∧ tx1.eng = none ∧ tx1.copy = none ∧ tx1.port < 64 ∧
      (∃ j, j < 8 ∧ vecGet groupLog.oplog j none = none) ∧ stateTx.portUp 2 = false) ∧
    (stateTx.frozen = false ∧ (9, 0) ∈ (stateTx.vf 0).peers ∧ (9, 1) ∉ (stateTx.vf 0).peers ∧ (stateTx.vf 0).mig = none ∧
      (0x40300000 : DWord).toNat < 2 ^ 55 ∧
      (match stateTx.stage2 0 0x40300000 with
        | .ok pa e _ => pa == 0x40300000 && !fabAllows 0 e
        | _ => false) = true ∧
      (match stateFab.stage2 0 0x40300000 with
        | .ok pa e _ => fabAllows 0 e && fabAllows 1 e && stateFab.lineFault pa == none
        | _ => false) = true) :=
  ⟨⟨rfl, by decide +kernel, by decide +kernel, by decide +kernel⟩,
    ⟨by decide +kernel, by decide +kernel, by decide +kernel, by decide +kernel, by decide +kernel, by decide +kernel, by decide +kernel,
      by decide +kernel, by decide +kernel⟩,
    ⟨by decide +kernel, rfl, by decide, rfl, rfl, by decide, ⟨0, by decide, by decide +kernel⟩, by decide +kernel⟩, by decide +kernel, by decide +kernel,
    by decide +kernel, by decide +kernel, by decide, by decide +kernel, by decide +kernel⟩

/-- A device that has booted: nothing runs on it, virtual function 0 has slice 0, and a context record at 0x40200000. -/
def booted : Vector Die 4 := Vector.replicate 4 { mboot := 7 }
def ctxRec (save : Nat) : List Byte :=
  leBytes 8 0x40010000 ++ leBytes 8 2 ++ leBytes 8 0 ++ leBytes 16 0 ++ leBytes 8 0 ++ leBytes 8 0x100000 ++ leBytes 8 0 ++
    leBytes 8 64 ++ leBytes 8 save ++ leBytes 176 0
def stateHost (save : Nat) : State :=
  { dies := booted, mem := (placeWord [] 0).writeBytes 0x40200000 (ctxRec save), fwRegions := [0]
    vfs := [(0, { slices := 1, s2root := 0x10000, regions := [1], ctxmax := 2 })]
    contexts := [(0, { s1root := 0x40010000, asid := 1, sq := 9 })]
    queues := [(0, { queue1 with gen := 1, launch := true, elems := [] })] }

theorem test_hyp_HostCommandsConfigure :
    ¬ HostOpen State.reset ∧ HostOpen (stateHost 0) ∧
    ((0 : Word) = 0 ∧ (∃ c ∈ (stateHost 0).contexts, c.1 / 4096 = 0)) ∧
    ((∀ o ∈ (stateHost 0).vfs, o.1 ≠ 0 → o.2.slices &&& 3 = 0) ∧ (stateHost 0).hidden = [] ∧ (stateHost 0).vfIdle 0 = true ∧
      ((stateHost 0).vf 0).slices &&& ~~~ 3 = 0 ∧
      (let after : State := { stateHost 0 with vfs := KeyMap.put (stateHost 0).vfs 0 { (stateHost 0).vf 0 with slices := 3 } }
       after.ctxTotal ≤ 4096 ∧ after.budgetsOk = true)) ∧
    (bits (3 : DWord).toNat 63 16 = 0 ∧ bits (3 : DWord).toNat 7 2 = 0 ∧ bits (3 : DWord).toNat 15 8 ≤ 12 ∧
      (stateHost 0).noLaunches 0 = true ∧ 12 < bits (0xD00 : DWord).toNat 15 8) ∧
    (({ stateHost 0 with vfs := KeyMap.put (stateHost 0).vfs 0 { (stateHost 0).vf 0 with ctxmax := 4096 } } : State).ctxTotal ≤ 4096) ∧
    (({ stateHost 0 with vfs := KeyMap.put (stateHost 0).vfs 0 { (stateHost 0).vf 0 with
        budgetNext := vecMod ((stateHost 0).vf 0).budgetNext 0 fun _ => 1 } } : State).budgetsOk = true ∧
      ({ stateHost 0 with vfs := KeyMap.put (stateHost 0).vfs 0 { (stateHost 0).vf 0 with
        budgetNext := vecMod ((stateHost 0).vf 0).budgetNext 0 fun _ => 65535 } } : State).budgetsOk = true ∧
      ({ stateHost 0 with vfs := [(0, { slices := 0xFF, budgetNext := Vector.replicate 32 60000 })] } : State).budgetsOk = false) ∧
    ((match (stateHost 0).recordCause 0 0x40200000 with
        | .ok pa => firstBad (contextChecks ((stateHost 0).mem.bytes pa 256)) == none
        | _ => false) = true ∧
      (match (stateHost 1).recordCause 0 0x40200000 with
        | .ok pa => firstBad (contextChecks ((stateHost 1).mem.bytes pa 256)) == some 0x48
        | _ => false) = true ∧ (stateHost 0).ctxCount 0 < ((stateHost 0).vf 0).ctxmax ∧ (stateHost 0).contexts.length < 4096 ∧
      KeyMap.find (stateHost 0).contexts (0 * 4096 + 1) = none ∧
      (∀ c ∈ (stateHost 0).contexts, c.1 / 4096 = 0 → c.2.asid ≠ (contextOf (ctxRec 0)).asid)) ∧
    ((∀ x ∈ (stateHost 0).vfs, mapsInto (stateHost 0).mem 5 [42, 29, 16] x.2.s2root.toNat = false) ∧ regionExists 5 = true ∧
      (stateHost 0).ringIn 5 = false ∧ (vecGet (stateHost 0).dies (regionDie 5) {}).failed = false) ∧
    ((stateHost 0).inFirmware 0x30000 65536 65536 = true ∧ (stateHost 0).inFirmware 0x30000 (32 * 2 ^ 16) 4096 = true ∧
      (stateHost 0).inFirmware 0x30000 (64 * 2 ^ 16) 4096 = true ∧ (stateHost 0).evq.held = []) ∧
    (windowOk { rbase := 0, limit := 2 ^ 47, endpt := 1, rvf := 1, asid := 3, flags := 3 } 1 3 (2 ^ 47) = true ∧
      (stateHost 0).groups = [] ∧ (stateHost 0).cores = [] ∧ (stateHost 0).inbound = []) ∧
    ((KeyMap.find (stateHost 0).contexts (0 * 4096 + 0)).isSome = true ∧ (KeyMap.at (stateHost 0).queues 1 {}).live = false ∧
      (KeyMap.at (stateHost 0).queues 0 {}).live = true ∧
      (stateHost 0).queueOf (0 * 4096 + 0) 0x1000000000000 = some (0, { queue1 with launch := true, elems := [] })) :=
  ⟨fun h => absurd h.1 (by decide +kernel), ⟨by decide +kernel, rfl⟩, ⟨rfl, by decide +kernel⟩,
    ⟨by decide +kernel, rfl, by decide +kernel, by decide +kernel, by decide +kernel⟩,
    ⟨by decide +kernel, by decide +kernel, by decide +kernel, by decide +kernel, by decide +kernel⟩, by decide +kernel,
    ⟨by decide +kernel, by decide +kernel, by decide +kernel⟩,
    ⟨by decide +kernel, by decide +kernel, by decide +kernel, by decide +kernel, by decide +kernel, by decide +kernel⟩,
    ⟨by decide +kernel, by decide +kernel, by decide +kernel, by decide +kernel⟩,
    ⟨by decide +kernel, by decide +kernel, by decide +kernel, rfl⟩, ⟨by decide +kernel, rfl, rfl, rfl⟩, by decide +kernel, by decide +kernel, by decide +kernel, by decide +kernel⟩

/-- Contexts that run, are saved, or faulted in a save; the save area at 0x40400000, whose header is of a saved context. -/
def ctxAt (st : CtxState) : Context := { s1root := 0x40010000, asid := 1, state := st, save := 0x40400000 }
def saveHeader1 (n : Nat) : List Byte := leBytes 4 n ++ leBytes 4 2 ++ leBytes 4 0 ++ leBytes 4 1 ++ leBytes 240 0
def stateSave (st : CtxState) (n : Nat) : State :=
  { dies := booted, fwRegions := [0], mem := ((placeWord [] 0).writeN 0x20010 8 0x40000001).writeBytes 0x40400000 (saveHeader1 n)
    vfs := [(0, { slices := 1, s2root := 0x10000, regions := [1], saveRegions := [1] })]
    contexts := [(0, ctxAt st)] }
/-- The virtual function in a migration, with a stage-2 table of one 64 KiB page at 0x40300000, whose OWN is given. -/
def stateMig (m : Mig) (own : Nat) : State :=
  { dies := booted, fwRegions := [0]
    mem := (((Memory.writeN [] 0x10000 8 0x20002).writeN 0x20010 8 0x30002).writeN 0x30180 8 (0x4030003F + 64 * own))
    vfs := [(0, { slices := 1, s2root := 0x10000, regions := [1], mig := some m })]
    bundles := [(0, { contexts := [(0, ctxAt .saved)] })] }
def source1 : Mig := { source := true, quiesced := true }
def source2 : Mig := { source1 with transit := [0x4030] }
def target1 : Mig := { source := false }

/-- The saved context with one crew of one group, before and after RESUME has written the header. -/
def stateSaved : State := { stateSave .saved 1 with crews := [(0, { groups := [0] })], groups := [(0, {})] }
def stateSaved1 : State := ({ stateSaved.send (.answer true 0) with
  contexts := KeyMap.put stateSaved.contexts 0 { ctxAt .saved with state := .restoring } } : State).putHeader 0 3

theorem test_hyp_ContextsAreSavedAndMoved :
    (HostOpen (stateSave .live 1) ∧ KeyMap.find (stateSave .live 1).contexts (0 * 4096 + 0) = some (ctxAt .live) ∧
      (ctxAt .live).state = .live ∧ (ctxAt .saved).state ≠ .live ∧ (ctxAt .saved).frame = 0) ∧
    (stateSaved.headerOk 0 = some true ∧ (stateSave .saved 2).headerOk 0 = some false ∧ KeyMap.rising stateSaved.groups = true ∧
      (stateSaved1.savePieces 0).any (fun p => p.1 == .group 0) = true ∧
      ∀ p ∈ stateSaved1.savePieces 0,
        (stateSaved1.saveRead 0 (p.2.2.length / 65536 + 2) ((ctxAt .saved).save.toNat + p.2.1) p.2.2.length).isSome = true) ∧
    (let s : State := { stateSave .saving 1 with vfs := [(0, { saveFault := some (0, 0x40400000) })] }
     (s.vf 0).saveFault = some (0, 0x40400000)) ∧
    (((stateSave .live 1).vf 0).slices ≠ 0 ∧ ((stateSave .live 1).vf 0).mig = none ∧ ((stateSave .live 1).vf 0).saveFault = none ∧
      sameLinks ((stateSave .live 1).vf 0).rankLinks [] = true ∧ [1, 0] ≠ ((stateSave .live 1).vf 0).dieRanks) ∧
    (HostOpen (stateMig source1 1) ∧ ((stateMig source1 1).vf 0).mig = some source1 ∧ (stateMig source1 1).allMoved 0 = true) ∧
    ((KeyMap.find (stateMig target1 1).vfs 0).isSome = true ∧ (KeyMap.find (stateMig target1 1).bundles 0).isSome = true) ∧
    ((stateMig source1 0).pageLeaf 0 0x40300000 = some (0x30180, 0x4030003F) ∧ ownOf 0x4030003F = 0 ∧
      entOA 0x4030003F / 2 ^ 30 ∈ ((stateMig source1 0).vf 0).regions ∧ 0x40300000 / 65536 ∈ source2.transit ∧
      (stateMig source2 2).inbound = [] ∧ (stateMig target1 1).deadRings = [] ∧ (stateMig source2 2).pageLeaf 0 0x40300000 = some (0x30180, 0x403000BF) ∧
      ownOf 0x403000BF = 2 ∧ (stateMig target1 1).pageLeaf 0 0x40300000 = some (0x30180, 0x4030007F) ∧ ownOf 0x4030007F = 1 ∧
      (List.replicate 65536 (0 : Byte)).length = 65536) ∧
    (stateMig source1 0).nextPush 0 = some 0x4030 ∧ (stateMig source1 1).nextPush 0 = none :=
  ⟨⟨⟨by decide +kernel, rfl⟩, rfl, rfl, by decide, rfl⟩, ⟨by decide +kernel, by decide +kernel, rfl, by decide +kernel, by decide +kernel⟩, by decide +kernel,
    ⟨by decide +kernel, by decide +kernel, by decide +kernel, by decide +kernel, by decide +kernel⟩,
    ⟨⟨by decide +kernel, rfl⟩, by decide +kernel, by decide +kernel⟩, by decide +kernel,
    ⟨by decide +kernel, by decide +kernel, by decide +kernel, by decide +kernel, rfl, rfl, by decide +kernel, by decide +kernel,
      by decide +kernel, by decide +kernel, List.length_replicate⟩, by decide +kernel, by decide +kernel⟩

/-- Links in each state, an array with a failed bank, an image that passes and one that does not. -/
theorem test_hyp_EdgesOfTheDevice :
    HostOpen (stateHost 0) ∧ (stateHost 0).sliceWait = [] ∧ KeyMap.find (stateHost 0).routersWoke 3 ≠ some (stateHost 0).cycle ∧
    KeyMap.find ({ routersWoke := [(3, 0)] } : State).routersWoke 3 = some 0 ∧ (stateHost 0).frozen = false ∧ ({ stateHost 0 with frozen := true } : State).frozen = true ∧ (KeyMap.find (stateHost 0).vfs 0).isSome = true ∧
    ((State.reset.sram 0).failed = none ∧ (State.reset.sram 0).spareUsed = false ∧ (State.reset.sram 0).erasure = false ∧
      (({ srams := [(0, { failed := some 3 })] } : State).sram 0).failed = some 3) ∧
    ((({ links := [(0, { replay := true, repair := some 5 })] } : State).link 0).replay = true ∧
      (({ links := [(0, { replay := true, repair := some 5 })] } : State).link 0).spares = 2 ∧
      (({ links := [(0, { spares := 0, retraining := true })] } : State).link 0).retraining = true) ∧
    ((vecGet State.reset.dies 0 {}).mboot = 0 ∧ (vecGet State.reset.dies 0 {}).failed = false ∧
      State.reset.image.passes State.reset.minVersion = true ∧ ({ State.reset.image with magic := 0 } : Image).passes 0 = false ∧
      (vecGet ({ dies := Vector.replicate 4 { mboot := 0x80 } } : State).dies 0 {}).mboot = 0x80) ∧
    ((stateHost 0).clusterIdle 0 = true ∧ 0 / 8 ∉ (stateHost 0).spareUsed) ∧
    KeyMap.find (state1 groupZH).groups 0 = some groupZH :=
  ⟨⟨by decide +kernel, rfl⟩, rfl, by decide +kernel, rfl, rfl, rfl, by decide +kernel, by decide +kernel, by decide +kernel,
    by decide +kernel, by decide +kernel, rfl⟩

/-- The machine with a word placed for its next step, the group that runs it, and its entry under prefixes. -/
def stateWord (w : Nat) : State := State.reset.withFetchWord 32 w
def entryPre (p : Pre) : Entry := { pc := 0x40100000, mask := allLanes, pre := p }
def statePre (w : Nat) (p : Pre) : State := { stateWord w with groups := [(0, { wordGroup with entries := [entryPre p] })] }

theorem test_hyp_StepRunsTheDecodedInstruction :
    ((match (stateWord 0x02102860).translate 0 0x40100000 .fetch .s with
        | .ok e => (stateWord 0x02102860).lineFault (e.pa 0x40100000) == none && (stateWord 0x02102860).farPort (e.pa 0x40100000) == none
        | _ => false) = true) ∧
    (KeyMap.find (stateWord 0x02102860).groups 0 = some wordGroup ∧ wordGroup.entries[0]? = some (entryPre {}) ∧
      (match (stateWord 0x02102860).turn with
        | some (.entry 0 0 p) => p == (stateWord 0x02102860).plan wordGroup (entryPre {})
        | _ => false) = true ∧
      (match (stateWord 0x02102860).fetch wordGroup (entryPre {}).wordPc.toNat with
        | .word w _ => w == 0x02102860
        | _ => false) = true ∧ decode 0x02102860 = .ok (.iadd 4 5 6 false)) ∧
    ((match (statePre 0x02102860 { lit := some 1 }).turn with
        | some (.entry 0 0 _) => true
        | _ => false) = true ∧ litTarget (.iadd 4 5 6 false) = false ∧ litTarget (.iaddi 4 5 6 false) = true) ∧
    ((match (statePre 0x02102860 { rep := some (3, 1, 1, 1), idx := 2 }).turn with
        | some (.entry 0 0 _) => true
        | _ => false) = true ∧ repTarget (.iadd 4 5 6 false) = some (true, true, true) ∧ strideBad (true, true, true) 1 1 1 = false ∧
      (steppedWord 0x02102860 2 1 1 1).2 = false ∧
      decode (.ofNat 32 (steppedWord 0x02102860 2 1 1 1).1) = .ok (.iadd 6 7 8 false)) ∧
    (∃ x, decode 0 = .error x) ∧
    ((match ({ state1 groupClose with cur := .none } : State).turn with
        | some (.again 0 0 _) => true
        | _ => false) = true) ∧
    ((match (stateWord 0x78000000).turn with
        | some (.shore r _) => !r.isClose && r.pc == 0
        | _ => false) = true ∧ decode 0x78000000 = .ok .mend) ∧
    (({ agenda := [.powerOnBoot] } : State).agenda = .powerOnBoot :: [] ∧
      ({ frozen := true, agenda := [.powerOnBoot, .thermalResume 1] } : State).agenda.find? goesOn = some (.thermalResume 1) ∧
      ∀ i ∈ ({ frozen := true, agenda := [.powerOnBoot] } : State).agenda, goesOn i = false) :=
  ⟨by decide +kernel, ⟨rfl, by decide +kernel, by decide +kernel, by decide +kernel, rfl⟩, ⟨by decide +kernel, rfl, rfl⟩,
    ⟨by decide +kernel, rfl, by decide, by decide +kernel, rfl⟩, ⟨_, rfl⟩, by decide +kernel, ⟨by decide +kernel, rfl⟩,
    ⟨rfl, rfl, by decide⟩⟩

theorem test_hyp_DecodeOfEncode :
    (Instr.iadd 4 5 6 false).wf = true ∧ (Instr.iadd 4 5 6 false).coded = true ∧ decode 0x02102860 = .ok (.iadd 4 5 6 false) :=
  ⟨by decide +kernel, by decide +kernel, rfl⟩

theorem test_hyp_EncodeOfDecode : decode 0x02102860 = .ok (.iadd 4 5 6 false) := rfl

/-- A step that writes memory: a store drains, in no region whose requests are metered. -/
def stateMem : State :=
  { stateDr (.store {} [⟨0, 0x40300000, .phys 0x40300000, [1, 2]⟩]) with agenda := [.storeDrain 0], vfs := [] }
theorem test_hyp_StepKeepsMemory :
    stateMem.mem.wf = true ∧ (match step stateMem with
      | .next t => t.mem.read 0x40300001 == 2
      | _ => false) = true :=
  ⟨by decide +kernel, by decide +kernel⟩

/-! ### Ill-formed terms that WellFormed refuses -/

theorem test_wf_refuses_lane : [Instr.lea 0 0 0 5 false, .mov2 1 0 false, .mov2 0 1 false, .cmov 0 0 48 false false,
    .cmovD 1 0 0 false false, .icmp 48 0 0 0 false, .icmp 0 0 0 10 false, .fcmp 0 1 0 8 false, .pand 48 0 0 false false,
    .por 0 48 0 false false, .pxor 0 0 48 false false, .pmov 0 48 false, .pset 48 false, .fadd 1 0 0 1 false, .fsub 0 1 0 1 false,
    .fmul 0 0 1 1 false false, .fmac 1 0 0 1 false false, .fmin 1 0 0 1 false, .fmax 1 0 0 1 false, .frnd 0 0 0 5 false,
    .frnd 1 0 1 0 false, .cvt 0 0 9 0 false false, .cvt 0 0 1 7 false false, .cvt 1 0 1 0 false false, .shfl 0 0 0 4 false,
    .vote 0 0 4 false, .vote 0 48 0 false, .vote 1 0 2 false].all (fun i => !i.wf) = true := by decide +kernel

theorem test_wf_refuses_memory : [Instr.ld 0 0 0 7 0 false, .ld 0 0 0 0 3 false, .ld 1 0 0 3 0 false, .ld 2 0 0 4 0 false,
    .st 0 0 0 5 0 false, .st 0 0 0 0 3 false, .ldf 0 0 0 2 false, .atom 1 0 0 0 true false, .atom 0 1 0 1 false false,
    .cpy 0 0 0 3 false false, .cpy 0 0 1 0 false false, .pf 0 0 3 false, .tex 0 0 0 3 false, .fpost 48 0 0 false].all
      (fun i => !i.wf) = true := by decide +kernel

theorem test_wf_refuses_control : [Instr.br 48 false false 0 0, .brx 1 0 false false, .call 48 false false 0 0, .mfrg 16 0, .mfrg 0 11,
    .mtld 0 3, .mtst 16 0, .mdsc 8 false, .gcmp 0 0 0 10 false, .fence 7 0 false, .bara 0 0 0 7 false, .bararr 0 1 false false false,
    .vgive 0 false, .vclaim 16 false, .rtrel 0 7 false].all (fun i => !i.wf) = true := by decide +kernel

/-! ### Words the spec writes out, and the instructions it says they are -/

theorem test_decode_lane : [decode 0x02102860, decode 0x02102868, decode 0x120C0000, decode 0x1E206160, decode 0x14080208,
      decode 0x0C0C1848, decode 0x1828206C, decode 0x22102860, decode 0x222858CA, decode 0x2A1C218C, decode 0x2C788184, decode 0x3850A802,
      decode 0x162860C2, decode 0x1A081044, decode 0x062C6876] =
    [.ok (.iadd 4 5 6 false), .ok (.iaddsN32 4 5 6 false), .ok (.movi 3 0 false), .ok (.fadd 8 12 22 0 false), .ok (.srd 2 0x020 false),
      .ok (.shlImm 3 3 4 false), .ok (.icmp 5 2 3 6 false), .ok (.fmac 4 5 6 0 false false), .ok (.fmac 10 11 12 2 true false),
      .ok (.cvt 7 4 12 3 false false), .ok (.pkn 30 16 24 2 false), .ok (.redx 20 21 1 false), .ok (.cmovD 10 12 6 false false),
      .ok (.fcmp 1 1 2 2 false), .ok (.imac 11 13 7 false)] := by decide +kernel

theorem test_decode_memory : [decode 0x3E203910, decode 0x3E401820, decode 0x3E080848, decode 0x3E101814, decode 0x40203910,
      decode 0x46286100, decode 0x4600A09A, decode 0x480C1128, decode 0x4C4020CA, decode 0x502101C0] =
    [.ok (.ld 8 7 4 2 0 false), .ok (.ld 16 3 0 4 0 false), .ok (.ld 2 1 1 1 0 false), .ok (.ld 4 3 0 2 2 false),
      .ok (.st 8 7 4 2 0 false), .ok (.atom 10 12 4 0 false false), .ok (.atom 0 20 2 6 true false), .ok (.cpy 3 2 4 2 true false),
      .ok (.tex 16 4 6 5 false), .ok (.fpost 4 16 7 false)] := by decide +kernel

theorem test_decode_control : [decode 0x52185FFD, decode 0x523A1FFE, decode 0x5600200A, decode 0x54004180, decode 0x700C0200,
      decode 0x70140500, decode 0x760C0000, decode 0x92192400, decode 0x94001FC0, decode 0x8E500005, decode 0xD2000000] =
    [.ok (.br 3 false false 2 0x1FFD), .ok (.br 7 false true 0 0x1FFE), .ok (.call 0 false false 1 10), .ok (.brx 8 3 false false),
      .ok (.mfrg 3 4), .ok (.mfrg 5 10), .ok (.mdsc 1 true), .ok (.rep 3 1 1 1), .ok (.lit 0x1FC0), .ok (.gbr 2 true 0 5),
      .ok .eret] := by decide +kernel

theorem test_decode_uniform : [decode 0x84104020, decode 0x82304186, decode 0x83E79E8E, decode 0x87E80E26, decode 0x8C282002,
      decode 0x8C00F186, decode 0x97100000, decode 0x9680_0000, decode 0x98A2A184, decode 0x9A028B04, decode 0x9C028B80,
      decode 0xCA030C84, decode 0xCCD30200] =
    [.ok (.gaddi 2 2 16 false), .ok (.gmulhN 6 2 3 false), .ok (.gxor 60 60 61 false), .ok (.gmovi 61 1811 false),
      .ok (.gsrd 5 0x040 false), .ok (.gsrw 0 7 35 false), .ok (.fence 4 1 false), .ok (.fence 2 0 false), .ok (.bara 20 21 3 2 false),
      .ok (.bararr 20 22 true false false), .ok (.barwait 20 23 false), .ok (.nred 24 25 2 false), .ok (.nrwait 26 24 4 false)] := by
  decide +kernel

theorem test_decode_units : [decode 0xA4404032, decode 0xA8494592, decode 0xAA610000, decode 0xAE1A8A84, decode 0xB8214580,
      decode 0xBA014600, decode 0xBE00A500, decode 0xBE00A502, decode 0xC0F3E282, decode 0xC203C600, decode 0xC403C600,
      decode 0xC603C008, decode 0xC86BC000, decode 0xAC00A000] =
    [.ok (.mma 8 2 3 1 false), .ok (.acst 9 10 11 4 false), .ok (.mmwait 12 8 false), .ok (.qpush 3 20 21 2 false),
      .ok (.bowchk 4 10 11 false), .ok (.bowset 10 12 false), .ok (.bowidle 5 10 false), .ok (.bowwake 5 10 false),
      .ok (.rtopen 30 31 5 true false), .ok (.fseal 30 12 false), .ok (.rtsync 30 12 false), .ok (.rtrel 30 4 false),
      .ok (.rtclose 13 30 false), .ok (.tspawn 5 false)] := by decide +kernel

/-- R57 (03, end): the word of IADD with F = 6 traps. -/
theorem test_decode_refuses : (match decode 0x0210286C with
    | .error _ => true
    | .ok _ => false) = true := by decide +kernel

/-- The hypotheses of the statements about words that are no instruction (LaneIntegerArithmetic, LaneLogicAndShifts,
LaneBitFields): opcode, F and B of such words at the edges of what they say, each refused. -/
theorem test_hyp_words_lane : [0x0200000C, 0x06000008, 0x0800000C, 0x08000018, 0x0A00000C, 0x0C000208, 0x0E00000E, 0x0E000010,
      0x1000000A].map (fun x : Word => (x.toNat / 2 ^ 25, x.toNat / 2 % 8, x.toNat / 2 ^ 4 % 128, (decodeTableWord 32 x.toNat).isNone)) =
    [(1, 6, 0, true), (3, 4, 0, true), (4, 6, 0, true), (4, 4, 1, true), (5, 6, 0, true), (6, 4, 32, true), (7, 7, 0, true),
      (7, 0, 1, true), (8, 5, 0, true)] := by decide +kernel
/-- The same of UniformArithmetic and UniformPredicates. -/
theorem test_hyp_words_uniform : [0x82000020, 0x88000140, 0x88000002].map (fun x : Word =>
      (x.toNat / 2 ^ 25, x.toNat / 2 % 64, x.toNat / 2 ^ 5 % 16, x.toNat / 2 % 16, (decodeTableWord 32 x.toNat).isNone)) =
    [(65, 16, 1, 0, true), (68, 32, 10, 0, true), (68, 1, 0, 1, true)] := by decide +kernel

/-! ### Results the spec works out -/

/-- The group after an instruction runs in it. -/
def after (i : Instr) (g : Group) : Group :=
  match exec i (state1 g) with
  | .next t => KeyMap.at t.groups 0 {}
  | _ => {}
/-- A group whose lane 0 holds values in V4 on. -/
def groupV (xs : List Word) : Group :=
  { group1 with v := Vector.ofFn fun r => Vector.ofFn fun l => if l.val = 0 then xs.getD (r.val - 4) 0 else 0 }

/-- R100's example: 0xFFFF_FFF0 + 0x20 as n32 is 0xFFFF_FFFF with SAT. -/
theorem test_iadds_n32 : (after (.iaddsN32 4 5 6 false) (groupV [0, 0xFFFFFFF0, 0x20])).vAt 4 0 = 0xFFFFFFFF ∧
    (after (.iaddsN32 4 5 6 false) (groupV [0, 0xFFFFFFF0, 0x20])).arith = flagSAT := ⟨by decide +kernel, by decide +kernel⟩
/-- R100's example: ISUBS.N32 of 3 - 5 gives 0. -/
theorem test_isubs_n32 : (after (.isubsN32 4 5 6 false) (groupV [7, 3, 5])).vAt 4 0 = 0 := by decide +kernel
/-- R103: IABS of -2^31 gives 0x7FFF_FFFF with SAT. -/
theorem test_iabs_least : (after (.iabs 4 5 false) (groupV [0, 0x80000000])).vAt 4 0 = 0x7FFFFFFF := by decide +kernel
/-- R118: i32 -5 to n32 gives 0 with SAT. -/
theorem test_cvt_n32 : (after (.cvt 4 5 37 0 false false) (groupV [9, 0xFFFFFFFB])).vAt 4 0 = 0 ∧
    (after (.cvt 4 5 37 0 false false) (groupV [9, 0xFFFFFFFB])).arith &&& flagSAT = flagSAT := ⟨by decide +kernel, by decide +kernel⟩
/-- R92's example: the first two steps of a generator at 1. -/
theorem test_next_random : nextRandom 1 = (0x00042021, 0x0004) ∧ nextRandom 0x00042021 = (0x04080601, 0x0408) :=
  ⟨by decide +kernel, by decide +kernel⟩
/-- R90's table for E2M1: 0.25, 2.5, -3.5, 5.0 and 7.0 under RNA and RNE, and a NaN. -/
theorem test_e2m1 : [0x3E800000, 0x40200000, 0xC0600000, 0x40A00000, 0x40E00000].map
      (fun x => (narrowF .e2m1 .rna true 0 (decodeF .f32 x), (narrowF .e2m1 .rne true 0 (decodeF .f32 x)).1)) =
    [((0x1, flagNX ||| flagUF), 0x0), ((0x5, flagNX), 0x4), ((0xE, flagNX), 0xE), ((0x7, flagNX), 0x6),
      ((0x7, flagNX ||| flagOF ||| flagSAT), 0x7)] ∧ narrowF .e2m1 .rna true 0 .nan = (0x7, flagNanLost) :=
  ⟨by decide +kernel, by decide +kernel⟩
/-- R88's example of a MERE5 block. -/
theorem test_mere5 : mereEncode 0x00000007 3 (List.replicate 16 0)
      ([0x40400000, 0xBF800000, 0x3E800000, 0x3F19999A, 0x3F400000, 0x3F600000].map (decodeF .f32)) =
    (leNat [0x80, 0xF4, 0xA6, 0x11, 0x43, 0, 0, 0, 0, 0], flagNX) := by decide +kernel
/-- R13's example: the neighbours of logical cluster 13. -/
theorem test_neighbours : (List.range 4).map (neighbour 13) = [12, 14, 9, 25] := by decide +kernel
/-- R121's example: four values through the slot e4m3, width, saturating, bias 0. -/
def statePkn : State :=
  let g := { groupV [0, 0, 0, 0, 0, 0, 0, 0, 0, 0, 0, 0, 0x3F800000, 0xC0533333, 0x43FA0000, 0x3A83126F] with blocks := 16 }
  { state1 g with crews := [(0, { groups := [0], params := { wordParams with slots := [0, 0, 0x43] } })] }
theorem test_pkn : (match exec (.pkn 30 16 24 2 false) statePkn with
    | .next t => (KeyMap.at t.groups 0 {}).vAt 30 0 == 0x017EC538 && (KeyMap.at t.groups 0 {}).arith == flagNX ||| flagOF ||| flagSAT ||| flagUF
    | _ => false) = true := by decide +kernel

end Sys2Proof.Tests
end

section
/-! Values of the lane and uniform integer instructions (R50, R100 to R107, R129): what the model computes, in the words of the
statements. -/
namespace Sys2Proof.LaneArith
open Sys2Proof.Machine Sys2Proof.Claims

/-! ### Saturation and extrema -/

theorem satTo_eq {lo hi : Int} (hle : lo ≤ hi) (x : Int) :
    satTo lo hi x = (.ofInt 32 (max lo (min hi x)), if lo ≤ x ∧ x ≤ hi then 0 else flagSAT) := by
  unfold satTo
  split
  · rw [if_neg (by omega), show max lo (min hi x) = lo by omega]
  · split
    · rw [if_neg (by omega), show max lo (min hi x) = hi by omega]
    · rw [if_pos (by omega), show max lo (min hi x) = x by omega]

/-- The magnitude of the least i32 is the one that saturates. -/
theorem satI32_natAbs (x : Word) :
    satI32 (x.toInt.natAbs : Int) = (.ofInt 32 (min 2147483647 |x.toInt|), if x = 0x80000000 then flagSAT else 0) := by
  have hlo := BitVec.le_toInt x
  have hhi := BitVec.toInt_lt (x := x)
  have hleast : x = 0x80000000 ↔ x.toInt = -2147483648 := by rw [← BitVec.toInt_inj]; rfl
  have hin : (-2147483648 ≤ (x.toInt.natAbs : Int) ∧ (x.toInt.natAbs : Int) ≤ 2147483647) ↔ ¬x = 0x80000000 := by
    rw [hleast]
    omega
  have hval : max (-2147483648) (min 2147483647 (x.toInt.natAbs : Int)) = min 2147483647 |x.toInt| := by
    rw [← Int.natCast_natAbs]
    omega
  rw [satI32, satTo_eq (by decide), hval, if_congr hin rfl rfl, ite_not]

theorem ofNat_natAbs (z : Int) : BitVec.ofNat 32 z.natAbs = .ofInt 32 |z| := by
  rw [← BitVec.ofInt_natCast, Int.natCast_natAbs]

/-- A choice by the numbers that two words stand for is the word of the smaller number. -/
theorem ite_lt_eq_min {α β : Type} [LinearOrder β] {num : α → β} {word : β → α} (h : ∀ x, word (num x) = x) (x y : α) :
    (if num y < num x then y else x) = word (min (num x) (num y)) := by
  split <;> rename_i hlt
  · rw [min_eq_right hlt.le, h]
  · rw [min_eq_left (not_lt.1 hlt), h]

theorem ite_lt_eq_max {α β : Type} [LinearOrder β] {num : α → β} {word : β → α} (h : ∀ x, word (num x) = x) (x y : α) :
    (if num x < num y then y else x) = word (max (num x) (num y)) := by
  split <;> rename_i hlt
  · rw [max_eq_right hlt.le, h]
  · rw [max_eq_left (not_lt.1 hlt), h]

section
variable {n : Nat} (x y : BitVec n)

theorem ite_slt_eq_min : (if y.slt x then y else x) = .ofInt n (min x.toInt y.toInt) := by
  simp only [BitVec.slt, decide_eq_true_eq]
  exact ite_lt_eq_min (fun z => BitVec.ofInt_toInt (x := z)) x y

theorem ite_slt_eq_max : (if x.slt y then y else x) = .ofInt n (max x.toInt y.toInt) := by
  simp only [BitVec.slt, decide_eq_true_eq]
  exact ite_lt_eq_max (fun z => BitVec.ofInt_toInt (x := z)) x y

theorem ite_ult_eq_min : (if y.ult x then y else x) = .ofNat n (min x.toNat y.toNat) := by
  simp only [BitVec.ult, decide_eq_true_eq]
  exact ite_lt_eq_min (fun z => BitVec.ofNat_toNat n z |>.trans z.setWidth_eq) x y

theorem ite_ult_eq_max : (if x.ult y then y else x) = .ofNat n (max x.toNat y.toNat) := by
  simp only [BitVec.ult, decide_eq_true_eq]
  exact ite_lt_eq_max (fun z => BitVec.ofNat_toNat n z |>.trans z.setWidth_eq) x y

/-! ### Shifts by any count -/

theorem shiftLeft_eq_ofNat (c : Nat) : x <<< c = .ofNat n (x.toNat * 2 ^ c) := by
  apply BitVec.eq_of_toNat_eq
  rw [BitVec.toNat_shiftLeft, Nat.shiftLeft_eq, BitVec.toNat_ofNat]

theorem shiftLeft_filled (c : Nat) : (if n ≤ c then 0 else x <<< c) = .ofNat n (x.toNat * 2 ^ c) := by
  rw [← shiftLeft_eq_ofNat]
  split <;> rename_i h
  · exact (BitVec.shiftLeft_eq_zero h).symm
  · rfl

theorem shiftRight_filled (c : Nat) : (if n ≤ c then 0 else x >>> c) = .ofNat n (x.toNat / 2 ^ c) := by
  have hval : x >>> c = .ofNat n (x.toNat / 2 ^ c) := by
    apply BitVec.eq_of_toNat_eq
    rw [BitVec.toNat_ushiftRight, Nat.shiftRight_eq_div_pow, BitVec.toNat_ofNat,
      Nat.mod_eq_of_lt ((Nat.div_le_self _ _).trans_lt x.isLt)]
  rw [← hval]
  split <;> rename_i h
  · exact (BitVec.ushiftRight_eq_zero h).symm
  · rfl

end

/-- A number of m bits and a sign has all its quotients by powers of two past the m-th alike: 0 or -1. -/
theorem ediv_two_pow_min (z : Int) (m c : Nat) (hlo : -2 ^ m ≤ z) (hhi : z < 2 ^ m) : z / 2 ^ min c m = z / 2 ^ c := by
  rcases Nat.le_total c m with h | h
  · rw [min_eq_left h]
  · have hpow : (2 : Int) ^ m ≤ 2 ^ c := pow_le_pow_right₀ (by decide) h
    rw [min_eq_right h]
    rcases Int.lt_or_le z 0 with hz | hz
    · rw [Int.ediv_eq_neg_one_of_neg_of_le hz (by omega), Int.ediv_eq_neg_one_of_neg_of_le hz (by omega)]
    · rw [Int.ediv_eq_zero_of_lt hz hhi, Int.ediv_eq_zero_of_lt hz (by omega)]

/-- A shift by the width or more leaves copies of the sign, as a shift by one less does. -/
theorem sshiftRight_filled {n : Nat} (x : BitVec n) (c : Nat) :
    x.sshiftRight (min c (n - 1)) = .ofInt n (x.toInt / 2 ^ c) := by
  rw [BitVec.sshiftRight, Int.shiftRight_eq_div_pow, ← ediv_two_pow_min _ _ c (BitVec.le_toInt x) BitVec.toInt_lt]
  norm_cast

/-! ### Counts (R106) -/

theorem foldl_add_toNat_eq_countP (p : Nat → Bool) (xs : List Nat) (k : Nat) :
    xs.foldl (fun n i => n + (p i).toNat) k = k + xs.countP p := by
  induction xs generalizing k with
  | nil => rfl
  | cons x xs ih =>
    rw [List.foldl_cons, ih, List.countP_cons]
    cases p x <;> simp; omega

theorem popCount_eq_countP (x : Word) : popCount x = (List.range 32).countP fun i => x.getLsbD i := by
  rw [popCount, foldl_add_toNat_eq_countP, Nat.zero_add]

theorem leadingZeros_le (x : Word) : leadingZeros x ≤ 32 := by
  unfold leadingZeros
  split <;> omega

/-- The leading zeros say how large a word can be, and the bit below them that it is so large. -/
theorem leadingZeros_bounds (x : Word) :
    x.toNat < 2 ^ (32 - leadingZeros x) ∧ (leadingZeros x < 32 → 2 ^ (31 - leadingZeros x) ≤ x.toNat) := by
  unfold leadingZeros
  split <;> rename_i h
  · simp [h]
  · have hne : x.toNat ≠ 0 := fun h0 => h (BitVec.eq_of_toNat_eq h0)
    have hlog : x.toNat.log2 < 32 := (Nat.log2_lt hne).2 x.isLt
    rw [show 32 - (31 - x.toNat.log2) = x.toNat.log2 + 1 by omega, show 31 - (31 - x.toNat.log2) = x.toNat.log2 by omega]
    exact ⟨Nat.lt_log2_self, fun _ => Nat.log2_self_le hne⟩

theorem lowestOne_spec (x : Word) (hx : x ≠ 0) :
    lowestOne x < 32 ∧ x.getLsbD (lowestOne x) = true ∧ ∀ j, j < lowestOne x → x.getLsbD j = false := by
  unfold lowestOne
  cases hfind : (List.range 32).find? fun i => x.getLsbD i with
  | none =>
    refine absurd (BitVec.eq_of_getLsbD_eq fun i hi => ?_) hx
    simpa using List.find?_eq_none.1 hfind i (List.mem_range.2 hi)
  | some i =>
    obtain ⟨hbit, hmem, hlow⟩ := List.find?_range_eq_some.1 hfind
    exact ⟨List.mem_range.1 hmem, hbit, fun j hj => by simpa using hlow j hj⟩

theorem reverse_getLsbD (x : Word) (i : Nat) (hi : i < 32) : x.reverse.getLsbD i = x.getLsbD (31 - i) := by
  rw [BitVec.getLsbD_reverse, BitVec.getMsbD_eq_getLsbD]
  simp [hi]

/-! ### Fields of bits (R106) -/

theorem bfxN_getLsbD (a b : Word) (i : Nat) (hi : i < 32) :
    (bfxN a b).getLsbD i = (decide (i < fieldLen b) && a.getLsbD (fieldPos b + i)) := by
  rw [bfxN, BitVec.getLsbD_ofNat, Nat.testBit_mod_two_pow, Nat.testBit_div_two_pow, BitVec.testBit_toNat, Nat.add_comm i]
  simp [hi]

/-- The field that BFX.I takes: the low len bits of the source shifted right with its sign. -/
theorem toNat_field (a b : Word) :
    ((a.sshiftRight (fieldPos b)).setWidth (fieldLen b)).toNat = (a.toInt / 2 ^ fieldPos b % 2 ^ fieldLen b).toNat := by
  have hdvd : (2 : Int) ^ fieldLen b ∣ 2 ^ 32 := pow_dvd_pow 2 (Nat.min_le_right _ _)
  rw [BitVec.toNat_setWidth, BitVec.sshiftRight, BitVec.toNat_ofInt, Int.shiftRight_eq_div_pow,
    ← Int.emod_emod_of_dvd _ hdvd, Int.toNat_emod (Int.emod_nonneg _ (by decide)) (by positivity)]
  norm_cast

/-- BFX.I extends the sign of its field. -/
theorem bfxI_eq_signExtend (a b : Word) :
    bfxI a b = ((a.sshiftRight (fieldPos b)).setWidth (fieldLen b)).signExtend 32 := by
  rw [BitVec.signExtend, BitVec.toInt_eq_msb_cond, BitVec.msb_eq_getLsbD_last, ← BitVec.testBit_toNat, toNat_field]
  simp only [bfxI]
  by_cases h : fieldLen b = 0
  · simp [h]
  · rw [if_neg h, apply_ite (BitVec.ofInt 32), BitVec.ofInt_natCast]
    push_cast
    rfl

theorem sshiftRight_getLsbD_word (a : Word) (c i : Nat) (hi : i < 32) :
    (a.sshiftRight c).getLsbD i = a.getLsbD (min 31 (c + i)) := by
  rw [BitVec.getLsbD_sshiftRight, BitVec.msb_eq_getLsbD_last]
  split <;> rename_i h
  · rw [min_eq_right (by omega)]
    simp [hi]
  · rw [min_eq_left (by omega)]
    simp [hi]

theorem bfxI_getLsbD (a b : Word) (i : Nat) (hi : i < 32) :
    (bfxI a b).getLsbD i = (decide (fieldLen b ≠ 0) && a.getLsbD (min 31 (fieldPos b + min i (fieldLen b - 1)))) := by
  have hlen : fieldLen b ≤ 32 := Nat.min_le_right _ _
  rw [bfxI_eq_signExtend, BitVec.getLsbD_signExtend, BitVec.getLsbD_setWidth, BitVec.msb_setWidth]
  split <;> rename_i h
  · rw [sshiftRight_getLsbD_word a _ i hi, min_eq_left (show i ≤ fieldLen b - 1 by omega)]
    simp [hi, h, show fieldLen b ≠ 0 by omega]
  · rw [sshiftRight_getLsbD_word a _ _ (by omega), min_eq_right (show fieldLen b - 1 ≤ i by omega)]
    simp [hi, Nat.pos_iff_ne_zero]

/-- BFI takes the inserted bits within the field and leaves the others. -/
theorem bfi_getLsbD (a b d : Word) (i : Nat) (hi : i < 32) :
    (bfi a b d).getLsbD i =
      if fieldPos b ≤ i ∧ i < fieldPos b + fieldLen b then a.getLsbD (i - fieldPos b) else d.getLsbD i := by
  have hmask : ((2 ^ fieldLen b - 1) * 2 ^ fieldPos b).testBit i = decide (fieldPos b ≤ i ∧ i < fieldPos b + fieldLen b) := by
    rw [Nat.testBit_mul_two_pow, Nat.testBit_two_pow_sub_one, ← Bool.decide_and, decide_eq_decide]
    omega
  simp only [bfi, BitVec.getLsbD_or, BitVec.getLsbD_and, BitVec.getLsbD_not, BitVec.getLsbD_ofNat, hmask, Nat.testBit_mul_two_pow,
    BitVec.testBit_toNat, hi, decide_true, Bool.true_and]
  split <;> rename_i h <;> simp [h]

/-! ### Immediates (R50) -/

/-- An immediate under a LIT: its own bits, then those of the LIT, then copies of the LIT's sign. -/
theorem imm_getLsbD_of_lit {w : Nat} {e : Entry} {l : BitVec 25} (hl : e.pre.lit = some l) (i : BitVec w) (k : Nat)
    (hk : k < 64) :
    (e.imm i).getLsbD k = if k < w then i.getLsbD k else if k - w < 25 then l.getLsbD (k - w) else l.msb := by
  simp only [Entry.imm, hl, BitVec.getLsbD_or, BitVec.getLsbD_shiftLeft, BitVec.getLsbD_signExtend, BitVec.zeroExtend,
    BitVec.getLsbD_setWidth, hk, decide_true, Bool.true_and, show k - w < 64 by omega]
  by_cases h : k < w
  · simp [h]
  · simp [h, BitVec.getLsbD_of_ge i k (by omega)]

theorem imm_eq_uniImmediate {w : Nat} (e : Entry) (i : BitVec w) : e.imm i = uniImmediate e i := by
  unfold uniImmediate
  split <;> rename_i hl
  · simp only [Entry.imm, hl]
  · apply BitVec.eq_of_getLsbD_eq
    intro k hk
    rw [imm_getLsbD_of_lit hl i k hk, BitVec.getLsbD_signExtend, BitVec.getLsbD_append, BitVec.msb_append]
    grind

/-- A lane form sees the low 32 bits of its immediate: an immediate of 7 bits or more and a LIT fill them. -/
theorem imm_truncate_eq_laneImmediate {w : Nat} (e : Entry) (i : BitVec w) (hw : 7 ≤ w) :
    (e.imm i).truncate 32 = laneImmediate e i := by
  unfold laneImmediate
  apply BitVec.eq_of_getLsbD_eq
  intro k hk
  have hk64 : k < 64 := by omega
  split <;> rename_i hl
  · simp only [Entry.imm, hl, BitVec.truncate, BitVec.getLsbD_setWidth, BitVec.getLsbD_signExtend, hk, hk64, decide_true,
      Bool.true_and]
  · simp only [BitVec.truncate, BitVec.getLsbD_setWidth, imm_getLsbD_of_lit hl i k hk64, BitVec.getLsbD_append,
      show k - w < 25 by omega, if_true]

end Sys2Proof.LaneArith
end

section
/-! The shapes of the lane and uniform forms (R57, R64, R97): what a form writes and leaves alone follows from the model's
meaning of it and from the value it computes. -/
namespace Sys2Proof.LaneArith
open Sys2Proof.Machine Sys2Proof.Claims

/-! ### The checks of a word whose registers are ready -/

section
variable {g : Group} {m : Mask} {rs : List Nat}

theorem any_vEmpty_eq_false (h : VReady g m rs) : (rs.any fun r => g.vEmpty r m) = false :=
  List.any_eq_false.2 fun r hr => by
    obtain ⟨-, -, hfull⟩ := h r hr
    simp [hfull]

theorem any_outOfRange_eq_false (h : VReady g m rs) : (rs.any fun r => decide (8 * g.blocks ≤ r)) = false :=
  List.any_eq_false.2 fun r hr => by
    obtain ⟨hlt, -, -⟩ := h r hr
    simp [hlt]

theorem any_gEmpty_eq_false (h : GReady g rs) : rs.any g.gEmpty = false :=
  List.any_eq_false.2 fun r hr => by simp [h r hr]

theorem any_pEmpty_eq_false (h : PReady g m rs) : (rs.any fun r => g.pEmpty r m) = false :=
  List.any_eq_false.2 fun r hr => by
    obtain ⟨-, hfull⟩ := h r hr
    simp [hfull]

theorem any_qEmpty_eq_false (h : QReady g rs) : rs.any g.qEmpty = false :=
  List.any_eq_false.2 fun r hr => by simp [h r hr]

end

/-- A word whose sources and destinations are full, and whose V registers the group has, passes its checks (R57, R64). -/
theorem check_go_of_ready (n : Need) (g : Group) (m : Mask) (hi : n.illegal = false) (hr : n.roles = []) (hx : n.vx = [])
    (hv : VReady g m (n.vw ++ n.vr)) (hg : GReady g (n.gw ++ n.gr)) (hp : PReady g m (n.pw ++ n.pr))
    (hq : QReady g (n.qw ++ n.qr)) : n.check g m = .go := by
  obtain ⟨hvw, hvr⟩ := List.forall_mem_append.1 hv
  obtain ⟨hgw, hgr⟩ := List.forall_mem_append.1 hg
  obtain ⟨hpw, hpr⟩ := List.forall_mem_append.1 hp
  obtain ⟨hqw, hqr⟩ := List.forall_mem_append.1 hq
  refine check_go n g m hi ?_ (.inl (by rw [hr]; rfl)) ?_ ?_
  · rw [Need.outOfRange, hx, any_outOfRange_eq_false hvr, any_outOfRange_eq_false hvw]
    rfl
  · rw [Need.sourceEmpty, any_vEmpty_eq_false hvr, any_gEmpty_eq_false hgr, any_pEmpty_eq_false hpr, any_qEmpty_eq_false hqr]
    rfl
  · rw [Need.destEmpty, any_vEmpty_eq_false hvw, any_gEmpty_eq_false hgw, any_pEmpty_eq_false hpw, any_qEmpty_eq_false hqw]
    rfl

theorem acts_acting {s : State} {gid ei : Nat} {g : Group} {e : Entry} (h : Acts s gid ei g e) :
    s.acting = some (gid, g, ei, e) :=
  acting_of s gid ei g e h.cur h.group h.entry

/-! ### Lane forms to one V register -/

/-- A lane form to one V register does what its lane function says, if the function writes that register and draws no
random word (R97). -/
theorem laneForm_of_exec {i : Instr} {srcs reads : List Nat} {d : Nat} {w : Bool} {val : Entry → (Nat → Word) → Word}
    {fl : (Nat → Word) → Flags} (f : State → LaneIn → LaneOut) (hreads : reads ⊆ d :: srcs)
    (hexec : ∀ s, exec i s = laneForm { vr := reads, vw := [d], trp := w } s (f s))
    (hout : ∀ s gid ei g e, Acts s gid ei g e → ∀ x, f s x = { v := [(d, val e x.v)], fl := fl x.v }) :
    LaneForm i srcs d val fl := by
  intro s gid ei g e hact hready
  have hgo : Need.check { vr := reads, vw := [d], trp := w } g e.mask = .go :=
    check_go_of_ready _ g e.mask rfl rfl rfl
      (fun r h => hready r (List.cons_subset.2 ⟨List.mem_cons_self, hreads⟩ h))
      (List.forall_mem_nil _) (List.forall_mem_nil _) (List.forall_mem_nil _)
  have hf := hout s gid ei g e hact
  obtain ⟨-, hd, -⟩ := hready d List.mem_cons_self
  obtain ⟨v, a, happ, hv, ha⟩ := applyLanes_v1 g { vr := reads, vw := [d], trp := w } e.mask (f s) d
    (fun l => val e fun r => g.vAt r l) rfl rfl hd (fun l => by rw [hf]; rfl) (fun l => by rw [hf])
  refine ⟨{ g with v := v, arith := a, entries := moved g ei }, ⟨?_, rfl⟩, ?_, ?_, rfl⟩
  · rw [hexec, laneForm_go _ s _ gid ei g e hact.cur (acts_acting hact) hgo, happ]
    rfl
  · exact fun r l => (hv r l).trans (by simp only [List.mem_singleton])
  · intro k
    refine (ha k).trans ?_
    simp only [hf]
    rfl

theorem lane2_laneForm {i : Instr} {d a b : BitVec 7} {w : Bool} (f : Word → Word → Word × Flags)
    (hexec : ∀ s, exec i s = lane2 f d a b w s) :
    LaneForm i [a.toNat, b.toNat] d.toNat (fun _ x => (f (x a.toNat) (x b.toNat)).1)
      fun x => (f (x a.toNat) (x b.toNat)).2 :=
  laneForm_of_exec _ (by simp) hexec fun _ _ _ _ _ _ _ => rfl

theorem lane1_laneForm {i : Instr} {d a : BitVec 7} {w : Bool} (f : Word → Word × Flags)
    (hexec : ∀ s, exec i s = lane1 f d a w s) :
    LaneForm i [a.toNat] d.toNat (fun _ x => (f (x a.toNat)).1) fun x => (f (x a.toNat)).2 :=
  laneForm_of_exec _ (by simp) hexec fun _ _ _ _ _ _ _ => rfl

section
variable {i : BitVec 7 → BitVec 7 → BitVec 7 → Bool → Instr} (meaning : BitVec 7 → BitVec 7 → BitVec 7 → Bool → State → Result)
  (hexec : ∀ d a b w s, exec (i d a b w) s = meaning d a b w s)
include hexec

/-- A form whose meaning is the shared shape of two sources writes the value of that shape. -/
theorem lane2_of_exec {f f' : Word → Word → Word} (hval : ∀ x y, f' x y = f x y)
    (hmeaning : meaning = lane2 fun x y => plain (f' x y)) : Lane2 i f := by
  obtain rfl : f' = f := funext fun x => funext (hval x)
  subst hmeaning
  exact fun d a b w => lane2_laneForm _ (hexec d a b w)

theorem laneSat_of_exec {lo hi : Int} {f : Word → Word → Int} (hle : lo ≤ hi)
    (hmeaning : meaning = lane2 fun x y => satTo lo hi (f x y)) : LaneSat i lo hi f := by
  subst hmeaning
  intro d a b w
  simpa only [satTo_eq hle] using lane2_laneForm _ (hexec d a b w)

theorem lane3_of_exec (f : Word → Word → Word → Word) (hmeaning : meaning = lane3 fun x y z => plain (f x y z))
    (d a b : BitVec 7) (w : Bool) :
    LaneValue (i d a b w) [a.toNat, b.toNat] d.toNat fun x => f (x a.toNat) (x b.toNat) (x d.toNat) := by
  subst hmeaning
  exact laneForm_of_exec _ (by simp) (hexec d a b w) fun _ _ _ _ _ _ _ => rfl

end

theorem lane1_of_exec {i : BitVec 7 → BitVec 7 → Bool → Instr} {f f' : Word → Word}
    (meaning : BitVec 7 → BitVec 7 → Bool → State → Result) (hexec : ∀ d a w s, exec (i d a w) s = meaning d a w s)
    (hval : ∀ x, f' x = f x) (hmeaning : meaning = lane1 fun x => plain (f' x)) : Lane1 i f := by
  obtain rfl : f' = f := funext hval
  subst hmeaning
  exact fun d a w => lane1_laneForm _ (hexec d a w)

theorem laneCount_of_exec {i : BitVec 7 → BitVec 7 → BitVec 5 → Bool → Instr} {f f' : Word → Nat → Word}
    (meaning : BitVec 7 → BitVec 7 → BitVec 5 → Bool → State → Result)
    (hexec : ∀ d a c w s, exec (i d a c w) s = meaning d a c w s) (hval : ∀ x (c : BitVec 5), f' x c.toNat = f x c.toNat)
    (hmeaning : meaning = fun d a c => lane1 (fun x => plain (f' x c.toNat)) d a) : LaneCount i f := by
  subst hmeaning
  intro d a c w
  simpa only [LaneValue, plain, hval] using lane1_laneForm _ (hexec d a c w)

/-- IADDI adds the acting entry's immediate (R101). -/
theorem iaddi_laneForm (d a : BitVec 7) (i : BitVec 10) (w : Bool) :
    LaneForm (.iaddi d a i w) [a.toNat] d.toNat (fun e x => x a.toNat + laneImmediate e i) fun _ => 0 :=
  laneForm_of_exec (fun s x => { v := [(d.toNat, x.v a.toNat + s.laneImm i)] }) (List.subset_cons_self _ _) (fun _ => rfl)
    fun s gid ei g e hact x => by
      simp only [State.laneImm, acts_acting hact, imm_truncate_eq_laneImmediate e i (by decide)]

/-! ### Uniform forms -/

/-- A form that writes G[d] changes no register but that one. -/
theorem uniForm_of_exec {i : Instr} {srcs : List Nat} {d : BitVec 6} {w : Bool} (val : Entry → (Nat → DWord) → DWord)
    (hexec : ∀ s, exec i s = issueRegs { gr := srcs, gw := [d.toNat], trp := w } s fun g e => g.setG d.toNat (val e g.gAt)) :
    UniForm i srcs d.toNat val := by
  intro s gid ei g e hact hready
  have hgo : Need.check { gr := srcs, gw := [d.toNat], trp := w } g e.mask = .go :=
    check_go_of_ready _ g e.mask rfl rfl rfl (List.forall_mem_nil _) hready (List.forall_mem_nil _) (List.forall_mem_nil _)
  refine ⟨{ g.setG d.toNat (val e g.gAt) with entries := moved g ei }, ⟨?_, rfl⟩, ?_, rfl⟩
  · rw [hexec, issueRegs_go _ s _ gid ei g e (acts_acting hact) hgo]
    rfl
  · exact fun r => group_gAt_setG g d.toNat r _ d.isLt

theorem uni2_of_exec {i : BitVec 6 → BitVec 6 → BitVec 6 → Bool → Instr} {f f' : DWord → DWord → DWord}
    (meaning : BitVec 6 → BitVec 6 → BitVec 6 → Bool → State → Result)
    (hexec : ∀ d a b w s, exec (i d a b w) s = meaning d a b w s) (hval : ∀ x y, f' x y = f x y)
    (hmeaning : meaning = uni2 f') : Uni2 i f := by
  obtain rfl : f' = f := funext fun x => funext (hval x)
  subst hmeaning
  exact fun d a b w => uniForm_of_exec _ (hexec d a b w)

theorem setQ_frame (g : Group) (d : Nat) (b : Bool) (es : List Entry) :
    { { g.setQ d b with entries := es } with q := g.q, entries := g.entries } = g := by
  unfold Group.setQ
  split <;> rfl

/-- A form that writes Q[q] changes no register but that one. -/
theorem uniTest_of_exec {i : Instr} {gs qs : List Nat} {q : BitVec 4} {w : Bool} (val : Group → Bool)
    (hexec : ∀ s, exec i s = issueRegs { gr := gs, qr := qs, qw := [q.toNat], trp := w } s fun g _ => g.setQ q.toNat (val g)) :
    UniTest i gs qs q.toNat val := by
  intro s gid ei g e hact hgs hqs
  have hgo : Need.check { gr := gs, qr := qs, qw := [q.toNat], trp := w } g e.mask = .go :=
    check_go_of_ready _ g e.mask rfl rfl rfl (List.forall_mem_nil _) hgs (List.forall_mem_nil _) hqs
  refine ⟨{ g.setQ q.toNat (val g) with entries := moved g ei }, ⟨?_, rfl⟩, ?_, setQ_frame g q.toNat (val g) (moved g ei)⟩
  · rw [hexec, issueRegs_go _ s _ gid ei g e (acts_acting hact) hgo, setQ_entries]
    rfl
  · exact fun r hr => group_qAt_setQ g q.toNat r _ q.isLt hr

theorem qlog2_uniTest {i : Instr} {q x y : BitVec 4} {n m : Bool} (f : Bool → Bool → Bool)
    (hexec : ∀ s, exec i s = qlog2 f q x y n m s) :
    UniTest i [] [x.toNat, y.toNat] q.toNat fun g => f (n ^^ g.qAt x.toNat) (m ^^ g.qAt y.toNat) := by
  simpa only [Bool.xor_comm n, Bool.xor_comm m] using
    uniTest_of_exec (i := i) (fun g => f (g.qAt x.toNat ^^ n) (g.qAt y.toNat ^^ m)) hexec

end Sys2Proof.LaneArith
end

section
/-! The words of the lane and uniform integer forms (R37, R41, R56): which form each opcode and F names, and which words are no
instruction. -/
namespace Sys2Proof.LaneArith
open Sys2Proof.Claims

/-- A number below 2³² that the tables give a well-formed form is the word of that form. -/
theorem decode_ofNat {n : Nat} (hn : n < 2 ^ 32) {i : Instr} (hraw : decodeRaw n = .ok i) (hwf : i.wf = true) :
    decode (.ofNat 32 n) = .ok i := by
  unfold decode
  rw [BitVec.toNat_ofNat, Nat.mod_eq_of_lt hn, hraw]
  exact if_pos hwf

/-- A word is no instruction if the tables give it none, or one whose fields R39 and R42 to R45 forbid. -/
theorem decode_error {x : Word} (h : ∀ i, decodeRaw x.toNat = .ok i → i.wf = false) : ∃ r, decode x = .error r := by
  unfold decode
  split
  · exact ⟨_, rfl⟩
  · rename_i i hi
    simp [h i hi]

theorem fld_opcode (x : Word) : fld x.toNat 25 7 = x.toNat / 2 ^ 25 :=
  Nat.mod_eq_of_lt (by have := x.isLt; omega)

theorem bit1_toNat (k : Nat) (w : Bool) : bit1 (k * 2 + w.toNat) 0 = w := by
  cases w <;> simp [bit1, fld, Nat.add_mod]

theorem ofNat_toNat_eq {n k : Nat} {x : BitVec n} (h : k = x.toNat) : BitVec.ofNat n k = x := by
  rw [h, BitVec.ofNat_toNat, BitVec.setWidth_eq]

/-! ### Lane words -/

/-- F and B stand side by side in bits 10:1. -/
theorem fld_one_ten (n : Nat) : fld n 1 10 = 8 * fld n 4 7 + fld n 1 3 := by
  simp only [fld]
  omega

/-- A form of the fields D, A and B, read from a word (R37). -/
def laneFields (i : BitVec 7 → BitVec 7 → BitVec 7 → Bool → Instr) (n : Nat) : Instr :=
  i (.ofNat 7 (fld n 18 7)) (.ofNat 7 (fld n 11 7)) (.ofNat 7 (fld n 4 7)) (bit1 n 0)

/-- The forms of the fields D, A and B, by opcode and F (R41). -/
def laneFormOf : Nat → Nat → Option (BitVec 7 → BitVec 7 → BitVec 7 → Bool → Instr)
  | 1, 0 => some .iadd
  | 1, 1 => some .isub
  | 1, 2 => some .iaddsI32
  | 1, 3 => some .isubsI32
  | 1, 4 => some .iaddsN32
  | 1, 5 => some .isubsN32
  | 3, 0 => some .imul
  | 3, 1 => some .imulhI32
  | 3, 2 => some .imulhN32
  | 3, 3 => some .imac
  | 4, 0 => some .iminI
  | 4, 1 => some .imaxI
  | 4, 2 => some .iminN
  | 4, 3 => some .imaxN
  | 4, 5 => some .idif
  | 5, 0 => some .and
  | 5, 1 => some .or
  | 5, 2 => some .xor
  | 5, 3 => some .andn
  | 5, 4 => some .orn
  | 5, 5 => some .xnor
  | 6, 0 => some .shlReg
  | 6, 1 => some .shrReg
  | 6, 2 => some .sarReg
  | 6, 3 => some .rolReg
  | 7, 4 => some .bfxN
  | 7, 5 => some .bfxI
  | 7, 6 => some .bfi
  | _, _ => none

/-- The forms of the fields D and A alone, by opcode and bits 10:1 (R41). -/
def laneFormOf1 : Nat → Nat → Option (BitVec 7 → BitVec 7 → Bool → Instr)
  | 4, 4 => some .iabs
  | 7, 0 => some .popc
  | 7, 1 => some .clz
  | 7, 2 => some .brev
  | 7, 3 => some .ffs
  | _, _ => none

/-- The shifts by an immediate count, by F (R105). -/
def countFormOf : Nat → Option (BitVec 7 → BitVec 7 → BitVec 5 → Bool → Instr)
  | 4 => some .shlImm
  | 5 => some .shrImm
  | 6 => some .sarImm
  | 7 => some .rolImm
  | _ => none

/-- A word with opcode, D and A, and ten bits between A and W, is the form the tables give for it. -/
theorem decode_laneWord {op mid : Nat} {i : BitVec 7 → BitVec 7 → Bool → Instr} (hop : op < 128) (hmid : mid < 1024)
    (hraw : ∀ n, fld n 25 7 = op → fld n 1 10 = mid →
      decodeRaw n = .ok (i (.ofNat 7 (fld n 18 7)) (.ofNat 7 (fld n 11 7)) (bit1 n 0)))
    (hwf : ∀ d a w, (i d a w).wf = true) (d a : BitVec 7) (w : Bool) :
    decode (.ofNat 32 (op * 2 ^ 25 + d.toNat * 2 ^ 18 + a.toNat * 2 ^ 11 + mid * 2 + w.toNat)) = .ok (i d a w) := by
  have hd := d.isLt
  have ha := a.isLt
  have hw := w.toNat_lt
  generalize hn : op * 2 ^ 25 + d.toNat * 2 ^ 18 + a.toNat * 2 ^ 11 + mid * 2 + w.toNat = n
  have hW : bit1 n 0 = w := by
    rw [show n = (op * 2 ^ 24 + d.toNat * 2 ^ 17 + a.toNat * 2 ^ 10 + mid) * 2 + w.toNat by omega, bit1_toNat]
  have hD : fld n 18 7 = d.toNat := by simp only [fld]; omega
  have hA : fld n 11 7 = a.toNat := by simp only [fld]; omega
  have h := hraw n (by simp only [fld]; omega) (by simp only [fld]; omega)
  rw [ofNat_toNat_eq hD, ofNat_toNat_eq hA, hW] at h
  exact decode_ofNat (by omega) h (hwf d a w)

theorem laneWords_of_raw {op f : Nat} {i : BitVec 7 → BitVec 7 → BitVec 7 → Bool → Instr} (hop : op < 128) (hf : f < 8)
    (hraw : ∀ n, fld n 25 7 = op → fld n 1 3 = f → decodeRaw n = .ok (laneFields i n))
    (hwf : ∀ d a b w, (i d a b w).wf = true) : LaneWords op f i := by
  intro d a b w
  have hb := b.isLt
  have hfields : ∀ n, fld n 1 10 = b.toNat * 8 + f → fld n 1 3 = f ∧ fld n 4 7 = b.toNat := fun n h => by
    simp only [fld] at *
    omega
  have h := decode_laneWord (i := fun d a w => i d a b w) (mid := b.toNat * 8 + f) hop (by omega)
    (fun n ho hmid => by
      obtain ⟨hF, hB⟩ := hfields n hmid
      rw [hraw n ho hF, laneFields, ofNat_toNat_eq hB])
    (fun d a w => hwf d a b w) d a w
  rwa [show op * 2 ^ 25 + d.toNat * 2 ^ 18 + a.toNat * 2 ^ 11 + (b.toNat * 8 + f) * 2 + w.toNat =
    op * 2 ^ 25 + d.toNat * 2 ^ 18 + a.toNat * 2 ^ 11 + b.toNat * 2 ^ 4 + f * 2 + w.toNat by omega] at h

theorem decodeRaw_laneForm {n op f : Nat} {i : BitVec 7 → BitVec 7 → BitVec 7 → Bool → Instr}
    (hform : laneFormOf op f = some i) (ho : fld n 25 7 = op) (hf : fld n 1 3 = f) :
    decodeRaw n = .ok (laneFields i n) := by
  unfold laneFormOf at hform
  split at hform <;> cases hform <;> simp [decodeRaw, laneFields, ho, hf, fld_one_ten]

theorem laneFormOf_wf {op f : Nat} {i : BitVec 7 → BitVec 7 → BitVec 7 → Bool → Instr} (hform : laneFormOf op f = some i) :
    op < 128 ∧ f < 8 ∧ ∀ d a b w, (i d a b w).wf = true := by
  unfold laneFormOf at hform
  split at hform <;> cases hform <;> exact ⟨by decide, by decide, fun _ _ _ _ => rfl⟩

theorem laneWords_of_form {op f : Nat} {i : BitVec 7 → BitVec 7 → BitVec 7 → Bool → Instr} (hform : laneFormOf op f = some i) :
    LaneWords op f i := by
  obtain ⟨hop, hf, hwf⟩ := laneFormOf_wf hform
  exact laneWords_of_raw hop hf (fun n => decodeRaw_laneForm hform) hwf

theorem laneWords1_of_form {op f : Nat} {i : BitVec 7 → BitVec 7 → Bool → Instr} (hform : laneFormOf1 op f = some i)
    (d a : BitVec 7) (w : Bool) :
    decode (.ofNat 32 (op * 2 ^ 25 + d.toNat * 2 ^ 18 + a.toNat * 2 ^ 11 + f * 2 + w.toNat)) = .ok (i d a w) := by
  have hF : ∀ n, fld n 1 3 = fld n 1 10 % 8 := fun n => by simp only [fld]; omega
  unfold laneFormOf1 at hform
  split at hform <;> cases hform <;>
    exact decode_laneWord (by decide) (by decide) (fun n ho hmid => by simp [decodeRaw, ho, hF, hmid]) (fun _ _ _ => rfl) d a w

theorem decodeRaw_countForm {n f : Nat} {i : BitVec 7 → BitVec 7 → BitVec 5 → Bool → Instr} (hform : countFormOf f = some i)
    (ho : fld n 25 7 = 6) (hf : fld n 1 3 = f) (hhigh : fld n 9 2 = 0) :
    decodeRaw n = .ok (i (.ofNat 7 (fld n 18 7)) (.ofNat 7 (fld n 11 7)) (.ofNat 5 (fld n 4 5)) (bit1 n 0)) := by
  unfold countFormOf at hform
  split at hform <;> cases hform <;> simp [decodeRaw, ho, hf, hhigh]

theorem countFormOf_wf {f : Nat} {i : BitVec 7 → BitVec 7 → BitVec 5 → Bool → Instr} (hform : countFormOf f = some i) :
    f < 8 ∧ ∀ d a c w, (i d a c w).wf = true := by
  unfold countFormOf at hform
  split at hform <;> cases hform <;> exact ⟨by decide, fun _ _ _ _ => rfl⟩

theorem countWords_of_form {f : Nat} {i : BitVec 7 → BitVec 7 → BitVec 5 → Bool → Instr} (hform : countFormOf f = some i)
    (d a : BitVec 7) (c : BitVec 5) (w : Bool) :
    decode (.ofNat 32 (6 * 2 ^ 25 + d.toNat * 2 ^ 18 + a.toNat * 2 ^ 11 + c.toNat * 2 ^ 4 + f * 2 + w.toNat)) =
      .ok (i d a c w) := by
  obtain ⟨hlt, hwf⟩ := countFormOf_wf hform
  have hc := c.isLt
  have hfields : ∀ n, fld n 1 10 = c.toNat * 8 + f → fld n 1 3 = f ∧ fld n 9 2 = 0 ∧ fld n 4 5 = c.toNat := fun n h => by
    simp only [fld] at *
    omega
  have h := decode_laneWord (op := 6) (i := fun d a w => i d a c w) (mid := c.toNat * 8 + f) (by decide) (by omega)
    (fun n ho hmid => by
      obtain ⟨hF, hhigh, hC⟩ := hfields n hmid
      rw [decodeRaw_countForm hform ho hF hhigh, ofNat_toNat_eq hC])
    (fun d a w => hwf d a c w) d a w
  rwa [show 6 * 2 ^ 25 + d.toNat * 2 ^ 18 + a.toNat * 2 ^ 11 + (c.toNat * 8 + f) * 2 + w.toNat =
    6 * 2 ^ 25 + d.toNat * 2 ^ 18 + a.toNat * 2 ^ 11 + c.toNat * 2 ^ 4 + f * 2 + w.toNat by omega] at h

theorem iaddi_words (d a : BitVec 7) (i : BitVec 10) (w : Bool) :
    decode (.ofNat 32 (2 * 2 ^ 25 + d.toNat * 2 ^ 18 + a.toNat * 2 ^ 11 + i.toNat * 2 + w.toNat)) = .ok (.iaddi d a i w) :=
  decode_laneWord (i := fun d a w => .iaddi d a i w) (by decide) i.isLt (fun n ho hmid => by simp [decodeRaw, ho, hmid])
    (fun _ _ _ => rfl) d a w

theorem lea_words (f : Nat) (hf : f ≤ 4) : LaneWords 8 f fun d a b w => .lea d a b (.ofNat 3 f) w :=
  laneWords_of_raw (by decide) (by omega) (fun n ho hF => by simp [decodeRaw, laneFields, ho, hF]) fun d a b w => by
    simp only [Instr.wf, BitVec.toNat_ofNat, decide_eq_true_eq]
    omega

/-! ### Lane words that are no instruction (R57) -/

theorem noWords_of_raw {op : Nat} {test : Nat → Nat → Prop}
    (h : ∀ n, fld n 25 7 = op → test (fld n 1 3) (fld n 4 7) → ∀ i, decodeRaw n = .ok i → i.wf = false) : NoWords op test :=
  fun x ho ht => decode_error (h x.toNat ((fld_opcode x).trans ho) ht)

/-- The values of F and B that no table of an opcode lists. -/
def unusedCodes : Nat → Nat → Nat → Prop
  | 1, f, _ => 6 ≤ f
  | 3, f, _ => 4 ≤ f
  | 4, f, b => 6 ≤ f ∨ (f = 4 ∧ b ≠ 0)
  | 5, f, _ => 6 ≤ f
  | 6, f, b => 4 ≤ f ∧ 32 ≤ b
  | 7, f, b => f = 7 ∨ (f < 4 ∧ b ≠ 0)
  | _, _, _ => False

theorem noWords_unusedCodes (op : Nat) : NoWords op (unusedCodes op) :=
  noWords_of_raw fun n ho hunused i => by
    have hmid := fld_one_ten n
    have hhigh : fld n 9 2 = fld n 4 7 / 32 := by simp only [fld]; omega
    unfold unusedCodes at hunused
    split at hunused
    case h_7 => exact hunused.elim
    all_goals
      simp only [decodeRaw, ho]
      repeat rw [if_neg (by omega)]
      rintro ⟨⟩

/-- The shift of LEA is at most 4 (R107). -/
theorem noWords_lea : NoWords 8 fun f _ => 5 ≤ f :=
  noWords_of_raw fun n ho hf i => by
    have hlt : fld n 1 3 < 8 := Nat.mod_lt _ (by decide)
    simp only [decodeRaw, ho]
    rintro ⟨⟩
    simp only [Instr.wf, BitVec.toNat_ofNat, decide_eq_false_iff_not]
    omega

/-! ### Uniform words -/

/-- A form of the fields D, A and B, read from a uniform word (R37). -/
def uniFields (i : BitVec 6 → BitVec 6 → BitVec 6 → Bool → Instr) (n : Nat) : Instr :=
  i (.ofNat 6 (fld n 19 6)) (.ofNat 6 (fld n 13 6)) (.ofNat 6 (fld n 7 6)) (bit1 n 0)

/-- The forms of R129, by F. -/
def uniForms : List (BitVec 6 → BitVec 6 → BitVec 6 → Bool → Instr) :=
  [.gadd, .gsub, .gmul, .gmulhN, .gmulhI, .gand, .gor, .gxor, .gandn, .gshl, .gshr, .gsar, .gminI, .gmaxI, .gminN, .gmaxN]

theorem decodeRaw_uniForm {n f : Nat} (hf : f < uniForms.length) (ho : fld n 25 7 = 65) (hF : fld n 1 6 = f) :
    decodeRaw n = .ok (uniFields uniForms[f] n) := by
  change f < 16 at hf
  interval_cases f <;> simp [decodeRaw, uniFields, uniForms, ho, hF]

theorem uniForms_wf {f : Nat} (hf : f < uniForms.length) (d a b : BitVec 6) (w : Bool) : (uniForms[f] d a b w).wf = true := by
  change f < 16 at hf
  interval_cases f <;> rfl

/-- A word with opcode, D and A, and twelve bits between A and W, is the form the tables give for it. -/
theorem decode_uniWord {op low : Nat} {i : BitVec 6 → BitVec 6 → Bool → Instr} (hop : op < 64) (hlow : low < 4096)
    (hraw : ∀ n, fld n 25 7 = 64 + op → fld n 1 12 = low →
      decodeRaw n = .ok (i (.ofNat 6 (fld n 19 6)) (.ofNat 6 (fld n 13 6)) (bit1 n 0)))
    (hwf : ∀ d a w, (i d a w).wf = true) (d a : BitVec 6) (w : Bool) :
    decode (.ofNat 32 ((64 + op) * 2 ^ 25 + d.toNat * 2 ^ 19 + a.toNat * 2 ^ 13 + low * 2 + w.toNat)) = .ok (i d a w) := by
  have hd := d.isLt
  have ha := a.isLt
  have hw := w.toNat_lt
  generalize hn : (64 + op) * 2 ^ 25 + d.toNat * 2 ^ 19 + a.toNat * 2 ^ 13 + low * 2 + w.toNat = n
  have hW : bit1 n 0 = w := by
    rw [show n = ((64 + op) * 2 ^ 24 + d.toNat * 2 ^ 18 + a.toNat * 2 ^ 12 + low) * 2 + w.toNat by omega, bit1_toNat]
  have hD : fld n 19 6 = d.toNat := by simp only [fld]; omega
  have hA : fld n 13 6 = a.toNat := by simp only [fld]; omega
  have h := hraw n (by simp only [fld]; omega) (by simp only [fld]; omega)
  rw [ofNat_toNat_eq hD, ofNat_toNat_eq hA, hW] at h
  exact decode_ofNat (by omega) h (hwf d a w)

theorem uniForms_words {f : Nat} (hf : f < uniForms.length) (d a b : BitVec 6) (w : Bool) :
    decode (.ofNat 32 ((64 + 1) * 2 ^ 25 + d.toNat * 2 ^ 19 + a.toNat * 2 ^ 13 + (b.toNat * 64 + f) * 2 + w.toNat)) =
      .ok (uniForms[f] d a b w) := by
  have hb := b.isLt
  have hf16 : f < 16 := hf
  refine decode_uniWord (i := fun d a w => uniForms[f] d a b w) (by decide) (by omega) (fun n ho hlow => ?_)
    (fun d a w => uniForms_wf hf d a b w) d a w
  have hF : fld n 1 6 = f := by simp only [fld] at *; omega
  have hB : fld n 7 6 = b.toNat := by simp only [fld] at *; omega
  rw [decodeRaw_uniForm hf ho hF, uniFields, ofNat_toNat_eq hB]
  rfl

theorem noWords_uniform (x : Word) (ho : x.toNat / 2 ^ 25 = 65) (hf : 16 ≤ x.toNat / 2 % 64) : ∃ r, decode x = .error r :=
  decode_error fun i => by
    have hF : fld x.toNat 1 6 = x.toNat / 2 % 64 := rfl
    simp only [decodeRaw, (fld_opcode x).trans ho]
    repeat rw [if_neg (by omega)]
    rintro ⟨⟩

theorem gaddi_words (d a : BitVec 6) (i : BitVec 12) (w : Bool) :
    decode (.ofNat 32 ((64 + 2) * 2 ^ 25 + d.toNat * 2 ^ 19 + a.toNat * 2 ^ 13 + i.toNat * 2 + w.toNat)) =
      .ok (.gaddi d a i w) :=
  decode_uniWord (i := fun d a w => .gaddi d a i w) (by decide) i.isLt (fun n ho hlow => by simp [decodeRaw, ho, hlow])
    (fun _ _ _ => rfl) d a w

theorem gmovi_words (d : BitVec 6) (i : BitVec 18) (w : Bool) :
    decode (.ofNat 32 ((64 + 3) * 2 ^ 25 + d.toNat * 2 ^ 19 + (0 : BitVec 6).toNat * 2 ^ 13 + i.toNat * 2 + w.toNat)) =
      .ok (.gmovi d i w) := by
  have hd := d.isLt
  have hi := i.isLt
  have hw := w.toNat_lt
  rw [show (0 : BitVec 6).toNat = 0 from rfl, Nat.zero_mul, Nat.add_zero]
  generalize hn : (64 + 3) * 2 ^ 25 + d.toNat * 2 ^ 19 + i.toNat * 2 + w.toNat = n
  have hW : bit1 n 0 = w := by
    rw [show n = (67 * 2 ^ 24 + d.toNat * 2 ^ 18 + i.toNat) * 2 + w.toNat by omega, bit1_toNat]
  have ho : fld n 25 7 = 67 := by simp only [fld]; omega
  have hD : fld n 19 6 = d.toNat := by simp only [fld]; omega
  have hI : fld n 1 18 = i.toNat := by simp only [fld]; omega
  exact decode_ofNat (by omega) (by simp [decodeRaw, ho, hD, hI, hW]) rfl

theorem gcmp_words (q c : BitVec 4) (a b : BitVec 6) (w : Bool) (hc : c.toNat < 10) :
    decode (.ofNat 32 (68 * 2 ^ 25 + q.toNat * 2 ^ 21 + a.toNat * 2 ^ 15 + b.toNat * 2 ^ 9 + c.toNat * 2 ^ 5 + w.toNat)) =
      .ok (.gcmp q a b c w) := by
  have hq := q.isLt
  have ha := a.isLt
  have hb := b.isLt
  have hw := w.toNat_lt
  generalize hn : 68 * 2 ^ 25 + q.toNat * 2 ^ 21 + a.toNat * 2 ^ 15 + b.toNat * 2 ^ 9 + c.toNat * 2 ^ 5 + w.toNat = n
  have hW : bit1 n 0 = w := by
    rw [show n = (68 * 2 ^ 24 + q.toNat * 2 ^ 20 + a.toNat * 2 ^ 14 + b.toNat * 2 ^ 8 + c.toNat * 2 ^ 4) * 2 + w.toNat by omega,
      bit1_toNat]
  have ho : fld n 25 7 = 68 := by simp only [fld]; omega
  have hQ : fld n 21 4 = q.toNat := by simp only [fld]; omega
  have hA : fld n 15 6 = a.toNat := by simp only [fld]; omega
  have hB : fld n 9 6 = b.toNat := by simp only [fld]; omega
  have hC : fld n 5 4 = c.toNat := by simp only [fld]; omega
  have hres : fld n 1 4 = 0 := by simp only [fld]; omega
  exact decode_ofNat (by omega) (by simp [decodeRaw, ho, hQ, hA, hB, hC, hres, hW]) (decide_eq_true hc)

theorem noWords_gcmp (x : Word) (ho : x.toNat / 2 ^ 25 = 68) (h : 10 ≤ x.toNat / 2 ^ 5 % 16 ∨ x.toNat / 2 % 16 ≠ 0) :
    ∃ r, decode x = .error r :=
  decode_error fun i => by
    have hC : fld x.toNat 5 4 = x.toNat / 2 ^ 5 % 16 := rfl
    have hres : fld x.toNat 1 4 = x.toNat / 2 % 16 := rfl
    simp only [decodeRaw, (fld_opcode x).trans ho]
    split
    · rintro ⟨⟩
      simp only [Instr.wf, BitVec.toNat_ofNat, decide_eq_false_iff_not]
      omega
    · rintro ⟨⟩

end Sys2Proof.LaneArith
end

section
/-! The statements about lane integer and uniform arithmetic (R100 to R107, R113, R129 to R132). -/
namespace Sys2Proof.LaneArith
open Sys2Proof.Machine Sys2Proof.Claims

/-- Settles O1: every form is one of the shared shapes, and only saturation, extrema and magnitudes need an argument about values. -/
theorem laneIntegerArithmetic : Obligations.LaneIntegerArithmetic := by
  refine ⟨?iadd, ?isub, ?iaddsI32, ?isubsI32, ?iaddsN32, ?isubsN32, ?iaddi, ?imul, ?imulhI32, ?imulhN32, ?imac, ?iminI, ?imaxI,
    ?iminN, ?imaxN, ?iabs, ?idif, laneWords_of_form rfl, laneWords_of_form rfl, laneWords_of_form rfl, laneWords_of_form rfl,
    laneWords_of_form rfl, laneWords_of_form rfl, noWords_unusedCodes 1, iaddi_words, laneWords_of_form rfl, laneWords_of_form rfl,
    laneWords_of_form rfl, laneWords_of_form rfl, noWords_unusedCodes 3, laneWords_of_form rfl, laneWords_of_form rfl,
    laneWords_of_form rfl, laneWords_of_form rfl, laneWords_of_form rfl, laneWords1_of_form rfl, noWords_unusedCodes 4⟩
  case iadd => exact lane2_of_exec execIadd (fun _ _ _ _ _ => rfl) (fun _ _ => rfl) rfl
  case isub => exact lane2_of_exec execIsub (fun _ _ _ _ _ => rfl) (fun _ _ => rfl) rfl
  case iaddsI32 => exact laneSat_of_exec execIaddsI32 (fun _ _ _ _ _ => rfl) (by decide) rfl
  case isubsI32 => exact laneSat_of_exec execIsubsI32 (fun _ _ _ _ _ => rfl) (by decide) rfl
  case iaddsN32 => exact laneSat_of_exec execIaddsN32 (fun _ _ _ _ _ => rfl) (by decide) rfl
  case isubsN32 => exact laneSat_of_exec execIsubsN32 (fun _ _ _ _ _ => rfl) (by decide) rfl
  case iaddi => exact iaddi_laneForm
  case imul => exact lane2_of_exec execImul (fun _ _ _ _ _ => rfl) (fun _ _ => rfl) rfl
  case imulhI32 => exact lane2_of_exec execImulhI32 (fun _ _ _ _ _ => rfl) (fun _ _ => rfl) rfl
  case imulhN32 => exact lane2_of_exec execImulhN32 (fun _ _ _ _ _ => rfl) (fun _ _ => rfl) rfl
  case imac => exact lane3_of_exec execImac (fun _ _ _ _ _ => rfl) (fun x y z => x * y + z) rfl
  case iminI => exact lane2_of_exec execIminI (fun _ _ _ _ _ => rfl) ite_slt_eq_min rfl
  case imaxI => exact lane2_of_exec execImaxI (fun _ _ _ _ _ => rfl) ite_slt_eq_max rfl
  case iminN => exact lane2_of_exec execIminN (fun _ _ _ _ _ => rfl) ite_ult_eq_min rfl
  case imaxN => exact lane2_of_exec execImaxN (fun _ _ _ _ _ => rfl) ite_ult_eq_max rfl
  case iabs =>
    intro d a w
    simpa only [satI32_natAbs] using lane1_laneForm (i := .iabs d a w) (fun x => satI32 x.toInt.natAbs) fun _ => rfl
  case idif => exact lane2_of_exec execIdif (fun _ _ _ _ _ => rfl) (fun x y => ofNat_natAbs (x.toInt - y.toInt)) rfl

/-- Settles O2: the shifts agree with products and quotients by powers of two past the width too. -/
theorem laneLogicAndShifts : Obligations.LaneLogicAndShifts := by
  refine ⟨?and, ?or, ?xor, ?andn, ?orn, ?xnor, ?shlReg, ?shrReg, ?sarReg, ?rolReg, ?shlImm, ?shrImm, ?sarImm, ?rolImm,
    laneWords_of_form rfl, laneWords_of_form rfl, laneWords_of_form rfl, laneWords_of_form rfl, laneWords_of_form rfl,
    laneWords_of_form rfl, noWords_unusedCodes 5, laneWords_of_form rfl, laneWords_of_form rfl, laneWords_of_form rfl,
    laneWords_of_form rfl, ⟨countWords_of_form rfl, countWords_of_form rfl, countWords_of_form rfl, countWords_of_form rfl⟩,
    noWords_unusedCodes 6⟩
  case and => exact lane2_of_exec execAnd (fun _ _ _ _ _ => rfl) (fun _ _ => rfl) rfl
  case or => exact lane2_of_exec execOr (fun _ _ _ _ _ => rfl) (fun _ _ => rfl) rfl
  case xor => exact lane2_of_exec execXor (fun _ _ _ _ _ => rfl) (fun _ _ => rfl) rfl
  case andn => exact lane2_of_exec execAndn (fun _ _ _ _ _ => rfl) (fun _ _ => rfl) rfl
  case orn => exact lane2_of_exec execOrn (fun _ _ _ _ _ => rfl) (fun _ _ => rfl) rfl
  case xnor => exact lane2_of_exec execXnor (fun _ _ _ _ _ => rfl) (fun _ _ => rfl) rfl
  case shlReg => exact lane2_of_exec execShlReg (fun _ _ _ _ _ => rfl) (fun x y => shiftLeft_filled x y.toNat) rfl
  case shrReg => exact lane2_of_exec execShrReg (fun _ _ _ _ _ => rfl) (fun x y => shiftRight_filled x y.toNat) rfl
  case sarReg => exact lane2_of_exec execSarReg (fun _ _ _ _ _ => rfl) (fun x y => sshiftRight_filled x y.toNat) rfl
  case rolReg => exact lane2_of_exec execRolReg (fun _ _ _ _ _ => rfl) (fun _ _ => rfl) rfl
  case shlImm => exact laneCount_of_exec execShlImm (fun _ _ _ _ _ => rfl) (fun x c => shiftLeft_filled x c.toNat) rfl
  case shrImm => exact laneCount_of_exec execShrImm (fun _ _ _ _ _ => rfl) (fun x c => shiftRight_filled x c.toNat) rfl
  case sarImm => exact laneCount_of_exec execSarImm (fun _ _ _ _ _ => rfl) (fun x c => sshiftRight_filled x c.toNat) rfl
  case rolImm =>
    exact laneCount_of_exec (f' := rol32) execRolImm (fun _ _ _ _ _ => rfl)
      (fun x c => congrArg x.rotateLeft (Nat.mod_eq_of_lt c.isLt)) rfl

/-- Settles O3: the counts and fields by what their bits are. -/
theorem laneBitFields : Obligations.LaneBitFields := by
  refine ⟨?popc, ⟨fun x => .ofNat 32 (leadingZeros x), ?clz, ?clzValue⟩, ⟨fun x => x.reverse, ?brev, reverse_getLsbD⟩,
    ⟨fun x => .ofNat 32 (lowestOne x), ?ffs, rfl, ?ffsValue⟩, ⟨bfxN, ?bfxN, bfxN_getLsbD⟩, ⟨bfxI, ?bfxI, bfxI_getLsbD⟩,
    ⟨bfi, ?bfi, bfi_getLsbD⟩, ?lea,
    ⟨laneWords1_of_form rfl, laneWords1_of_form rfl, laneWords1_of_form rfl, laneWords1_of_form rfl⟩, laneWords_of_form rfl,
    laneWords_of_form rfl, laneWords_of_form rfl, noWords_unusedCodes 7, lea_words, noWords_lea⟩
  case popc => exact lane1_of_exec execPopc (fun _ _ _ _ => rfl) (fun x => congrArg (BitVec.ofNat 32) (popCount_eq_countP x)) rfl
  case clz => exact lane1_of_exec execClz (fun _ _ _ _ => rfl) (fun _ => rfl) rfl
  case clzValue =>
    intro x
    have hle := leadingZeros_le x
    have hval : (BitVec.ofNat 32 (leadingZeros x)).toNat = leadingZeros x := Nat.mod_eq_of_lt (by omega)
    rw [hval]
    exact ⟨hle, leadingZeros_bounds x⟩
  case brev => exact lane1_of_exec execBrev (fun _ _ _ _ => rfl) (fun _ => rfl) rfl
  case ffs => exact lane1_of_exec execFfs (fun _ _ _ _ => rfl) (fun _ => rfl) rfl
  case ffsValue =>
    intro x hx
    obtain ⟨hlt, hspec⟩ := lowestOne_spec x hx
    have hval : (BitVec.ofNat 32 (lowestOne x)).toNat = lowestOne x := Nat.mod_eq_of_lt (by omega)
    rw [hval]
    exact hspec
  case bfxN => exact lane2_of_exec execBfxN (fun _ _ _ _ _ => rfl) (fun _ _ => rfl) rfl
  case bfxI => exact lane2_of_exec execBfxI (fun _ _ _ _ _ => rfl) (fun _ _ => rfl) rfl
  case bfi => exact lane3_of_exec execBfi (fun _ _ _ _ _ => rfl) bfi rfl
  case lea =>
    intro d a b n w
    simpa only [LaneValue, plain, shiftLeft_eq_ofNat] using
      lane2_laneForm (i := .lea d a b n w) (fun x y => plain (x + y <<< n.toNat)) fun _ => rfl

/-- Settles O10: the uniform forms by the same values as the lane forms, at 64 bits. -/
theorem uniformArithmetic : Obligations.UniformArithmetic := by
  refine ⟨?gadd, ?gsub, ?gmul, ?gmulhN, ?gmulhI, ?gand, ?gor, ?gxor, ?gandn, ?gshl, ?gshr, ?gsar, ?gminI, ?gmaxI, ?gminN, ?gmaxN,
    ?gaddi, ?gmovi, ?gmov, ?words, noWords_uniform, gaddi_words, gmovi_words⟩
  case gadd => exact uni2_of_exec execGadd (fun _ _ _ _ _ => rfl) (fun _ _ => rfl) rfl
  case gsub => exact uni2_of_exec execGsub (fun _ _ _ _ _ => rfl) (fun _ _ => rfl) rfl
  case gmul => exact uni2_of_exec execGmul (fun _ _ _ _ _ => rfl) (fun _ _ => rfl) rfl
  case gmulhN => exact uni2_of_exec execGmulhN (fun _ _ _ _ _ => rfl) (fun _ _ => rfl) rfl
  case gmulhI => exact uni2_of_exec execGmulhI (fun _ _ _ _ _ => rfl) (fun _ _ => rfl) rfl
  case gand => exact uni2_of_exec execGand (fun _ _ _ _ _ => rfl) (fun _ _ => rfl) rfl
  case gor => exact uni2_of_exec execGor (fun _ _ _ _ _ => rfl) (fun _ _ => rfl) rfl
  case gxor => exact uni2_of_exec execGxor (fun _ _ _ _ _ => rfl) (fun _ _ => rfl) rfl
  case gandn => exact uni2_of_exec execGandn (fun _ _ _ _ _ => rfl) (fun _ _ => rfl) rfl
  case gshl => exact uni2_of_exec execGshl (fun _ _ _ _ _ => rfl) (fun x y => shiftLeft_filled x y.toNat) rfl
  case gshr => exact uni2_of_exec execGshr (fun _ _ _ _ _ => rfl) (fun x y => shiftRight_filled x y.toNat) rfl
  case gsar => exact uni2_of_exec execGsar (fun _ _ _ _ _ => rfl) (fun x y => sshiftRight_filled x y.toNat) rfl
  case gminI => exact uni2_of_exec execGminI (fun _ _ _ _ _ => rfl) ite_slt_eq_min rfl
  case gmaxI => exact uni2_of_exec execGmaxI (fun _ _ _ _ _ => rfl) ite_slt_eq_max rfl
  case gminN => exact uni2_of_exec execGminN (fun _ _ _ _ _ => rfl) ite_ult_eq_min rfl
  case gmaxN => exact uni2_of_exec execGmaxN (fun _ _ _ _ _ => rfl) ite_ult_eq_max rfl
  case gaddi =>
    intro d a i w
    simpa only [imm_eq_uniImmediate] using
      uniForm_of_exec (i := .gaddi d a i w) (srcs := [a.toNat]) (fun e x => x a.toNat + e.imm i) fun _ => rfl
  case gmovi =>
    intro d i w
    simpa only [imm_eq_uniImmediate] using
      uniForm_of_exec (i := .gmovi d i w) (srcs := []) (fun e _ => e.imm i) fun _ => rfl
  case gmov => exact fun d a w => uniForm_of_exec (fun _ x => x a.toNat) fun _ => rfl
  case words =>
    intro d a b w
    change (uniForms.map fun i => i d a b w).map Except.ok = _
    refine List.ext_getElem (by simp [uniForms]) fun f hf _ => ?_
    simp only [List.getElem_map, List.getElem_range]
    exact (uniForms_words (by simpa only [List.length_map] using hf) d a b w).symm

/-- Settles O11: each form writes one uniform predicate. -/
theorem uniformPredicates : Obligations.UniformPredicates := by
  refine ⟨?gcmp, ?qand, ?qor, ?qxor, ?qmov, ?qset, gcmp_words, noWords_gcmp⟩
  -- The conditions of the statement and of the model's `icond` are the same comparisons.
  case gcmp => exact fun q a b c w => uniTest_of_exec (w := w) _ fun _ => rfl
  case qand => exact fun q x y n m => qlog2_uniTest and fun _ => rfl
  case qor => exact fun q x y n m => qlog2_uniTest or fun _ => rfl
  case qxor => exact fun q x y n m => qlog2_uniTest xor fun _ => rfl
  case qmov =>
    intro q x n
    simpa only [Bool.xor_comm n] using
      uniTest_of_exec (i := .qmov q x n) (w := false) (fun g => g.qAt x.toNat ^^ n) fun _ => rfl
  case qset => exact fun q m => uniTest_of_exec (w := false) _ fun _ => rfl

end Sys2Proof.LaneArith
end
